-- ==== Sys2Proof/Word.lean ====
section
/-! DEFINITION. The widths of the machine: byte, word, and the byte string (spec/00_scope.md R12, R13). -/

namespace Sys2Proof

/-- A byte: 8 bits, unsigned (R12). -/
abbrev Byte := BitVec 8

/-- A word: 32 bits, unsigned (R12); also a host-interface register (R11, `XLEN` = 32). -/
abbrev Word := BitVec 32

/-- A byte string; element 0 is the byte at the lowest address or earliest position (R13). -/
abbrev Bytes := List Byte

end Sys2Proof
end

