-- ==== Sys2Proof/Config.lean ====
section
/-! DEFINITION. What the spec fixes for the machine as a whole (spec/00_scope.md R11) and the one free value. -/

namespace Sys2Proof

/-- `AW`: the width of a buffer address, the value this hardware takes (R11; log 8). -/
def Config.addressWidth : Nat := 32

/-- The first number that is no buffer address, 2^AW (R61). -/
def Config.addressEnd : Nat := 2 ^ Config.addressWidth

/-- How many bytes the register block takes where a platform maps it: ten registers, register `n` at byte
offset `4n` (10_state.md R40; DEDUCED, log 3). -/
def Config.registerBlockBytes : Nat := 40

/-- FREE VALUE (DESIGN CHOICE, log 2): the byte at an address that nothing has written since power last came back.
The first argument counts the returns of power, the second is the address. The spec gives such a byte no value
and lets a model draw any (10_state.md R47, 93_implementation_defined.md U9): nothing constrains this constant. -/
opaque Config.unwrittenByte : Nat → Nat → Byte

end Sys2Proof
end

