-- ==== Sys2Proof/Syntax.lean ====
section
/-! DEFINITION. The sixteen commands (spec/30_encoding.md R92), the assembler's command line (R99), the
pseudo-commands (R100), and the reasons a CMD value is no command (R95, R96). -/

namespace Sys2Proof

/-- One constructor per row of the opcode table. The operands of a command are the `ARG` registers, not part of the
CMD word (R90, R91), so no constructor has an argument. -/
inductive Instr where
  | feiInit
  | feiEcbEnc
  | feiEcbDec
  | feiCbcEnc
  | feiCbcDec
  | feiDestroy
  | spnSetkey
  | spnSetkeyEnc
  | spnEnc
  | spnDec
  | spnDestroy
  | hashInit
  | hashUpdate
  | hashFinal
  | hmac
  | kdf
deriving DecidableEq, Repr

/-- What an operand is: a buffer address, a byte count, a key length in bits, an iteration count (R91). -/
inductive OperandKind where
  | addr
  | len
  | keybits
  | rounds
deriving DecidableEq, Repr

/-- Why a CMD value is not a command. -/
inductive DecodeError where
  /-- A bit of `rsv` (CMD[31:8]) is set (R95). -/
  | reservedBits
  /-- The opcode is not in the table (R96). -/
  | reservedOpcode
deriving DecidableEq, Repr

/-- The number of a host-interface register: 0 CMD, 1 to 7 ARG0 to ARG6, 8 STATUS, 9 RESULT (10_state.md R40). -/
abbrev RegNo := Fin 10

/-- A line of the assembler: a mnemonic and its operands in ARG order (R99). -/
structure Command where
  instr    : Instr
  operands : List Word
deriving DecidableEq, Repr

/-- The pseudo-commands (R100). -/
inductive Pseudo where
  | feiEncBlk (src dst : Word)
  | feiDecBlk (src dst : Word)
  | hash (src len dst : Word)
deriving DecidableEq, Repr

end Sys2Proof
end

