-- ==== Sys2Proof/Decode.lean ====
section
/-! DEFINITION. The decoder of CMD words, the encoder, the operand table, and the assembler (spec/30_encoding.md). -/

namespace Sys2Proof

/-- `CMD[7:0]` (R90). -/
def opcodeField (w : Word) : Byte := w.extractLsb' 0 8

/-- `CMD[31:8]` (R90). -/
def rsvField (w : Word) : BitVec 24 := w.extractLsb' 8 24

/-- The opcode map (R92); every other opcode is reserved (R96). -/
def decodeOpcode (op : Nat) : Except DecodeError Instr :=
  match op with
  | 0x10 => .ok .feiInit
  | 0x11 => .ok .feiEcbEnc
  | 0x12 => .ok .feiEcbDec
  | 0x13 => .ok .feiCbcEnc
  | 0x14 => .ok .feiCbcDec
  | 0x1F => .ok .feiDestroy
  | 0x20 => .ok .spnSetkey
  | 0x21 => .ok .spnSetkeyEnc
  | 0x22 => .ok .spnEnc
  | 0x23 => .ok .spnDec
  | 0x2F => .ok .spnDestroy
  | 0x30 => .ok .hashInit
  | 0x31 => .ok .hashUpdate
  | 0x32 => .ok .hashFinal
  | 0x40 => .ok .hmac
  | 0x50 => .ok .kdf
  | _ => .error .reservedOpcode

/-- Decoding a CMD word: all 32 bits are decoded (R92), a set `rsv` bit is illegal whatever the opcode (R95). -/
def decode (w : Word) : Except DecodeError Instr :=
  if rsvField w = 0 then decodeOpcode (opcodeField w).toNat else .error .reservedBits

/-- The opcode of each command (R92). -/
def opcodeOf (i : Instr) : Byte :=
  match i with
  | .feiInit => 0x10
  | .feiEcbEnc => 0x11
  | .feiEcbDec => 0x12
  | .feiCbcEnc => 0x13
  | .feiCbcDec => 0x14
  | .feiDestroy => 0x1F
  | .spnSetkey => 0x20
  | .spnSetkeyEnc => 0x21
  | .spnEnc => 0x22
  | .spnDec => 0x23
  | .spnDestroy => 0x2F
  | .hashInit => 0x30
  | .hashUpdate => 0x31
  | .hashFinal => 0x32
  | .hmac => 0x40
  | .kdf => 0x50

/-- The CMD word of a command: `rsv` = 0, then the opcode (R90). -/
def encode (i : Instr) : Word := (opcodeOf i).setWidth 32

/-- The operands each command reads, in ARG order from ARG0 (R91). -/
def operandKinds (i : Instr) : List OperandKind :=
  match i with
  | .feiInit => [.addr, .len]
  | .feiEcbEnc => [.addr, .addr, .len]
  | .feiEcbDec => [.addr, .addr, .len]
  | .feiCbcEnc => [.addr, .addr, .len, .addr]
  | .feiCbcDec => [.addr, .addr, .len, .addr]
  | .feiDestroy => []
  | .spnSetkey => [.addr, .keybits]
  | .spnSetkeyEnc => [.addr, .keybits]
  | .spnEnc => [.addr, .addr]
  | .spnDec => [.addr, .addr]
  | .spnDestroy => []
  | .hashInit => []
  | .hashUpdate => [.addr, .len]
  | .hashFinal => [.addr]
  | .hmac => [.addr, .len, .addr, .len, .addr]
  | .kdf => [.addr, .len, .addr, .len, .rounds, .addr, .len]

/-- The register writes of operands from register `n` on: ARG0 is register 1 (R99, 10_state.md R40). -/
def operandWrites (n : Nat) (ops : List Word) : List (RegNo × Word) :=
  match ops with
  | [] => []
  | v :: rest => (Fin.ofNat 10 n, v) :: operandWrites (n + 1) rest

/-- A line assembles to the register writes of its operands, then of CMD (R99). -/
def assemble (c : Command) : List (RegNo × Word) :=
  operandWrites 1 c.operands ++ [(0, encode c.instr)]

/-- What a pseudo-command stands for (R100). -/
def expandPseudo (p : Pseudo) : List Command :=
  match p with
  | .feiEncBlk src dst => [⟨.feiEcbEnc, [src, dst, 8]⟩]
  | .feiDecBlk src dst => [⟨.feiEcbDec, [src, dst, 8]⟩]
  | .hash src len dst => [⟨.hashInit, []⟩, ⟨.hashUpdate, [src, len]⟩, ⟨.hashFinal, [dst]⟩]

/-- The CMD word whose low `nbits` bits are those of `w` and whose other bits are 0. A command is one 32-bit value
written whole to CMD (R90, R98), so no byte order enters. -/
def tableWord (nbits w : Nat) : Word := BitVec.ofNat 32 (w % 2 ^ nbits)

/-- The command the decoder reads from a word numbered as the opcode table numbers it, none where it refuses. -/
def decodeTableWord (nbits w : Nat) : Option Instr :=
  match decode (tableWord nbits w) with
  | .ok i => some i
  | .error _ => none

end Sys2Proof
end

