-- ==== Sys2Proof/WellFormed.lean ====
section
/-! DEFINITION. When an assembler line is well formed (spec/30_encoding.md R91, R99). A CMD word carries no operand, so
every `Instr` by itself is well formed; the lines are what can be ill formed. -/

namespace Sys2Proof

/-- A line names exactly the operands that R91 lists for its command: not one fewer, not one more. -/
def Command.wf (c : Command) : Bool := c.operands.length == (operandKinds c.instr).length

/-- A pseudo-command is well formed when every line it stands for is. -/
def Pseudo.wf (p : Pseudo) : Bool := (expandPseudo p).all Command.wf

end Sys2Proof
end

