-- ==== Sys2Proof/Machine/State.lean ====
section
/-! DEFINITION. The state of one ecrypt_core as the spec lists it (spec/10_state.md R20), its reset value (R47), and the
reasons a step can stop. -/

namespace Sys2Proof.Machine

/-- The Feistel context (R23 to R25). -/
structure FeistelCtx where
  /-- The round-key array, 18 words (R23). -/
  P : Vector Word 18
  /-- The substitution table, 4 boxes of 256 words (R24). -/
  S : Vector (Vector Word 256) 4
  /-- 1 when `P` and `S` hold a key schedule (R25). -/
  keyed : Bool
deriving DecidableEq, Repr

/-- The values of `spn.Nr`: 0 (no key expanded), 10, 12, 14 (R27; log 7). -/
inductive Rounds where
  | none
  | r10
  | r12
  | r14
deriving DecidableEq, Repr

/-- The SPN context (R27 to R30). -/
structure SpnCtx where
  /-- The rounds count (R27). -/
  Nr : Rounds
  /-- The encrypt-only flag (R28). -/
  encOnly : Bool
  /-- The encryption schedule (R29). -/
  ek : Vector Word 60
  /-- The decryption schedule (R30). -/
  dk : Vector Word 60
deriving DecidableEq, Repr

/-- A hash-context value: state, bit counter, partial block, fill count (R32 to R34; `fill` < 64, log 7). -/
structure HashCtx where
  H : Vector Word 8
  cntLo : Word
  cntHi : Word
  buf : Vector Byte 64
  fill : Fin 64
deriving DecidableEq, Repr

/-- The architectural hash context: a hash-context value and the lifecycle bit (R35). -/
structure HashUnit where
  ctx : HashCtx
  active : Bool
deriving DecidableEq, Repr

/-- The working storage of HMAC and KDF (R37). -/
structure Scratch where
  hc0 : HashCtx
  hc1 : HashCtx
  k0 : Vector Byte 64
  ipad : Vector Byte 64
  opad : Vector Byte 64
  inner : Vector Byte 32
  U : Vector Byte 32
  T : Vector Byte 32
  cnt : Vector Byte 4
deriving DecidableEq, Repr

/-- What the outside world does to the machine, one access at a time (log 1, log 3, log 5, log 16, log 17). -/
inductive HostAccess where
  /-- The host writes a register of the block (R41 to R44). -/
  | writeReg (n : RegNo) (v : Word)
  /-- The host reads a register of the block (R45). -/
  | readReg (n : RegNo)
  /-- The host writes a word at an address where the platform may have mapped a register (R40, log 3). -/
  | writeAt (addr v : Word)
  /-- The host reads a word at an address where the platform may have mapped a register (R40, log 3). -/
  | readAt (addr : Word)
  /-- The host stores bytes into Mem (20_memory.md R62). -/
  | store (addr : Word) (bytes : Bytes)
  /-- The reset event (70_reset_and_hazards.md R340). -/
  | reset
  /-- Power is removed and comes back (60_exceptions.md R320). -/
  | powerCycle
deriving DecidableEq, Repr

/-- Buffer memory: the bytes that hold a value, as (address, byte) pairs in strictly rising order of address. An address
that is not listed holds no value (20_memory.md R61, R47; log 2). -/
abbrev Memory := List Host.Cell

/-- A range of buffer addresses: first address and byte count (20_memory.md R74). -/
structure BufRange where
  addr : Nat
  len : Nat
deriving DecidableEq, Repr

/-- The whole state (R20): the three contexts, scratch, the registers, Mem, and three fields of the model's own. -/
structure State where
  fei : FeistelCtx
  spn : SpnCtx
  hash : HashUnit
  scratch : Scratch
  /-- Register 0, CMD (R42). -/
  cmd : Word
  /-- Registers 1 to 7, ARG0 to ARG6 (R41). -/
  args : Vector Word 7
  /-- Register 8, STATUS (R43). -/
  status : Word
  /-- Register 9, RESULT (R44). -/
  result : Word
  /-- Mem (R46). -/
  mem : Memory
  /-- MODEL'S OWN (log 1): the host's accesses still to come, oldest first. -/
  host : List HostAccess
  /-- MODEL'S OWN (log 3): where the platform maps the register block over Mem, or nowhere. No step writes it. Any
  word: what a block does that would run past 2^32 is the model's choice (DESIGN CHOICE, log 3). -/
  regBase : Option Word
  /-- MODEL'S OWN (log 2): how often power has come back; selects the free bytes of unwritten memory. -/
  powerUps : Nat
deriving DecidableEq, Repr

/-- Why the machine stops with a fault. The core has no traps and never faults (60_exceptions.md R300); the reasons here are
about accesses of the host's own, which are no commands. -/
inductive Fault where
  /-- Raised by a `store` of the host (`hostStore`) whose bytes do not all lie at buffer addresses: address 0, past the top
  of the address space, or in the register block (20_memory.md R61, R76). SAFE: nothing is claimed of it (log 5). -/
  | hostStoreOutsideMem
  /-- Raised by `writeAt` and `readAt` of the host (`atRegister`) at an address where no register is mapped. SAFE: nothing is
  claimed of it (log 3). -/
  | noRegisterAtAddress
deriving DecidableEq, Repr

/-- Why an instruction has no step. -/
inductive Refusal where
  /-- An instruction without a meaning in this model, by mnemonic. SAFE. Raised by no meaning. -/
  | notModelled (mnemonic : String)
  /-- FEI_ECB_ENC, FEI_ECB_DEC, FEI_CBC_ENC, FEI_CBC_DEC with `fei.keyed` = 0 (40_feistel.md R138). SAFE: no step. -/
  | feistelNotKeyed
  /-- SPN_ENC, SPN_DEC with `spn.Nr` = 0 (42_spn.md R200). SAFE: no step. -/
  | spnNoSchedule
  /-- SPN_DEC with `spn.enc_only` = 1 (42_spn.md R200). SAFE: no step. -/
  | spnEncryptOnly
  /-- HASH_UPDATE, HASH_FINAL with `hash.active` = 0 (43_hash.md R242). SAFE: no step. -/
  | hashNotActive
  /-- A command whose buffer range wraps past the top of the address space (20_memory.md R74). SAFE: no step. -/
  | rangeWraps
  /-- A command whose buffer range overlaps the mapped register block (20_memory.md R76). SAFE: no step. -/
  | rangeOverRegisters
deriving DecidableEq, Repr

/-- The Feistel context after reset and after FEI_DESTROY (R47, 40_feistel.md R135). -/
def FeistelCtx.zero : FeistelCtx :=
  { P := Vector.replicate 18 0, S := Vector.replicate 4 (Vector.replicate 256 0), keyed := false }

/-- The SPN context after reset and after SPN_DESTROY (R47, 42_spn.md R199). -/
def SpnCtx.zero : SpnCtx :=
  { Nr := .none, encOnly := false, ek := Vector.replicate 60 0, dk := Vector.replicate 60 0 }

/-- A hash-context value with every field 0 (R36, R47). -/
def HashCtx.zero : HashCtx :=
  { H := Vector.replicate 8 0, cntLo := 0, cntHi := 0, buf := Vector.replicate 64 0, fill := 0 }

/-- The architectural hash context after reset and after HASH_FINAL (R36, R47). -/
def HashUnit.zero : HashUnit := { ctx := HashCtx.zero, active := false }

/-- Scratch between commands (R37, R47). -/
def Scratch.zero : Scratch :=
  { hc0 := HashCtx.zero, hc1 := HashCtx.zero, k0 := Vector.replicate 64 0, ipad := Vector.replicate 64 0,
    opad := Vector.replicate 64 0, inner := Vector.replicate 32 0, U := Vector.replicate 32 0,
    T := Vector.replicate 32 0, cnt := Vector.replicate 4 0 }

/-- The machine right after reset (R47): every context and register 0, no memory byte written. The model's own fields
(log 1, log 2, log 3): no access waiting, the block not mapped over Mem, power not yet lost. -/
def State.reset : State :=
  { fei := FeistelCtx.zero, spn := SpnCtx.zero, hash := HashUnit.zero, scratch := Scratch.zero,
    cmd := 0, args := Vector.replicate 7 0, status := 0, result := 0, mem := [],
    host := [], regBase := none, powerUps := 0 }

end Sys2Proof.Machine
end

