-- ==== Sys2Proof/Machine/Bytes.lean ====
section
/-! DEFINITION. Byte strings and words (spec/00_scope.md R12, R13; byte order 20_memory.md R66): everything is big-endian. -/

namespace Sys2Proof.Machine

/-- `BE32(b0, b1, b2, b3)` = `b0<<24 | b1<<16 | b2<<8 | b3` (R13). -/
def word4 (b0 b1 b2 b3 : Byte) : Word :=
  b0.setWidth 32 <<< 24 ||| b1.setWidth 32 <<< 16 ||| b2.setWidth 32 <<< 8 ||| b3.setWidth 32

/-- `BE32(B, i)`: the word of the four bytes of `B` from position `i`, the first most significant (R13). -/
def be32 (B : Bytes) (i : Nat) : Word :=
  word4 (B.getD i 0) (B.getD (i + 1) 0) (B.getD (i + 2) 0) (B.getD (i + 3) 0)

/-- Byte `r` of a word, counted from the most significant one. -/
def wordByte (w : Word) (r : Nat) : Byte := w.extractLsb' (24 - 8 * r) 8

/-- `BYTES32(w)` (R13). -/
def bytes32 (w : Word) : Bytes := [wordByte w 0, wordByte w 1, wordByte w 2, wordByte w 3]

/-- `BYTES64(v)` (R13). -/
def bytes64 (v : BitVec 64) : Bytes := bytes32 (v.extractLsb' 32 32) ++ bytes32 (v.extractLsb' 0 32)

/-- `ZERO(n)` (R13). -/
def zeroBytes (n : Nat) : Bytes := List.replicate n 0

/-- `XORB(A, B)` for strings of equal length (R13). -/
def xorb (A B : Bytes) : Bytes := List.zipWith (· ^^^ ·) A B

/-- `rotr32(a, n)` for 1 ≤ n ≤ 31 (R12). -/
def rotr32 (a : Word) (n : Nat) : Word := (a >>> n) ||| (a <<< (32 - n))

/-- `rotl32(a, n)` (R12). -/
def rotl32 (a : Word) (n : Nat) : Word := rotr32 a (32 - n)

end Sys2Proof.Machine
end

