-- ==== Sys2Proof/Machine/Flags.lean ====
section
/-! DEFINITION. The result codes of STATUS (spec/60_exceptions.md R301) and the lifecycle conditions (R310). The core has no
condition codes (10_state.md R39): these are its only flags. -/

namespace Sys2Proof.Machine

/-- `NO_ERROR` = 0 (R302). -/
def codeNoError : Word := 0

/-- `UNTESTED` = 1: defined, written by no command (R303). -/
def codeUntested : Word := 1

/-- `INVALID_LENGTH` = 2 (R304). -/
def codeInvalidLength : Word := 2

/-- `NULL_PTR` = 3 (R305). -/
def codeNullPtr : Word := 3

/-- `INVALID_PARAMETERS` = 4 (R307). -/
def codeInvalidParameters : Word := 4

/-- `STATUS[2:0]` (10_state.md R43). -/
def statusCode (w : Word) : BitVec 3 := w.extractLsb' 0 3

/-- The round count as a number (10_state.md R27). -/
def roundsNat (r : Rounds) : Nat :=
  match r with
  | .none => 0
  | .r10 => 10
  | .r12 => 12
  | .r14 => 14

/-- The round count as RESULT shows it (10_state.md R44). -/
def roundsWord (r : Rounds) : Word := BitVec.ofNat 32 (roundsNat r)

/-- The Feistel bulk commands are legal only on a keyed context (40_feistel.md R138). -/
def feistelReady (s : State) : Bool := s.fei.keyed

/-- A block transform needs an expanded key (42_spn.md R200). -/
def spnHasKey (s : State) : Bool := s.spn.Nr != .none

/-- Decryption needs the decryption schedule (42_spn.md R200). -/
def spnHasDecryption (s : State) : Bool := !s.spn.encOnly

/-- HASH_UPDATE and HASH_FINAL are legal only while a hash is in progress (43_hash.md R242). -/
def hashReady (s : State) : Bool := s.hash.active

end Sys2Proof.Machine
end

