-- ==== Sys2Proof/Machine/Ops.lean ====
section
/-! DEFINITION. The named operations over the state: field updates, buffer memory (spec/20_memory.md), and how a command
ends: `done`, `fail` (60_exceptions.md R306, this machine's form of an exception), `refuse` (R312), in the order of R308. -/

namespace Sys2Proof.Machine

/-- What a meaning answers. -/
abbrev Out := Host.Outcome State Fault Refusal

/-! ### Field updates -/

def setFei (c : FeistelCtx) (s : State) : State := { s with fei := c }
def setSpn (c : SpnCtx) (s : State) : State := { s with spn := c }
def setHash (c : HashUnit) (s : State) : State := { s with hash := c }
def setScratch (c : Scratch) (s : State) : State := { s with scratch := c }
def setMem (m : Memory) (s : State) : State := { s with mem := m }
def setHost (h : List HostAccess) (s : State) : State := { s with host := h }
def setCmd (v : Word) (s : State) : State := { s with cmd := v }
def setArg (n : Nat) (v : Word) (s : State) : State := { s with args := s.args.setIfInBounds n v }

/-- Every command writes STATUS and RESULT exactly once, when it ends (10_state.md R43, R44). -/
def setEnd (code res : Word) (s : State) : State := { s with status := code, result := res }

/-! ### Buffer memory -/

/-- The byte listed at an address, none where nothing has been written. -/
def lookupByte (m : Memory) (a : Nat) : Option Byte :=
  match m with
  | [] => none
  | (k, v) :: rest => if k = a then some v else lookupByte rest a

/-- `Mem[a] <- v`, keeping the list sorted with one entry per address. -/
def writeByte (m : Memory) (a : Nat) (v : Byte) : Memory :=
  match m with
  | [] => [(a, v)]
  | (k, w) :: rest =>
    if a < k then (a, v) :: (k, w) :: rest
    else if a = k then (a, v) :: rest
    else (k, w) :: writeByte rest a v

/-- `Mem[a + i] <- B[i]` for every byte of `B`, and nothing else (R65). -/
def writeBytes (m : Memory) (a : Nat) (B : Bytes) : Memory :=
  match B with
  | [] => m
  | v :: rest => writeBytes (writeByte m a v) (a + 1) rest

/-- Addresses strictly rising from above `lo`, each a buffer address (R61). -/
def memoryWfFrom (lo : Nat) (m : Memory) : Bool :=
  match m with
  | [] => true
  | (k, _) :: rest => decide (lo < k) && decide (k < Config.addressEnd) && memoryWfFrom k rest

/-- The canonical form: addresses strictly rising and all in 1 to 2^AW − 1. An unlisted address holds no value, so no entry
can equal what it holds; equal lists are equal memories. -/
def Memory.wf (m : Memory) : Bool := memoryWfFrom 0 m

/-- `Mem[a]` as a command reads it: the byte last written there, or a free byte where nothing has been written (R64,
10_state.md R47, log 2). -/
def readByte (s : State) (a : Nat) : Byte := (lookupByte s.mem a).getD (Config.unwrittenByte s.powerUps a)

/-- `MemRead(addr, n)` (R64). -/
def memRead (s : State) (a n : Nat) : Bytes := (List.range n).map fun i => readByte s (a + i)

/-- `MemWrite(addr, n, B)` with `n` = `len(B)` (R65). -/
def memWrite (a : Nat) (B : Bytes) (s : State) : State := setMem (writeBytes s.mem a B) s

/-- The range runs past the top of the address space (R74). -/
def rangeWraps (r : BufRange) : Bool := decide (Config.addressEnd < r.addr + r.len)

/-- The range shares a byte with the register block where a platform maps it (R76, log 3). A zero-length range is never
accessed and shares none (R74). DESIGN CHOICE (log 3): a block whose 40 bytes would run past 2^32 is cut off at the top of the
address space and takes no low address; the spec leaves REG_BASE open and is silent on it. -/
def rangeOverRegisters (base : Option Word) (r : BufRange) : Bool :=
  match base with
  | none => false
  | some b =>
    decide (0 < r.len) && decide (r.addr < b.toNat + Config.registerBlockBytes) && decide (b.toNat < r.addr + r.len)

/-! ### How a command ends -/

/-- `done`, with the value RESULT takes (00_scope.md R14, 10_state.md R44). -/
def endWith (res : Word) (s : State) : Out := .next (setEnd codeNoError res s)

/-- `done` with RESULT = 0. -/
def endOk (s : State) : Out := endWith 0 s

/-- `fail <CODE>`: STATUS and RESULT are written and nothing else changes (60_exceptions.md R306). -/
def endFail (code : Word) (s : State) : Out := .next (setEnd code 0 s)

/-- A lifecycle rule: refused, whatever the operands, unless the context is ready (R308 step 2, R312). -/
def whenReady (ready : Bool) (why : Refusal) (s : State) (k : State → Out) : Out :=
  if ready then k s else .refused why

/-- A check: `fail` with this code unless it holds (R308 steps 3 to 5). -/
def require (ok : Bool) (code : Word) (s : State) (k : State → Out) : Out :=
  if ok then k s else endFail code s

/-- No address operand is `NULL`, whatever length goes with it (20_memory.md R63, R305). -/
def nonNull (ptrs : List Word) : Bool := ptrs.all fun p => p != 0

/-- A command with a range that wraps or overlaps the register block is refused (20_memory.md R74, R76); after every check
that fails with a code (log 4). -/
def withRanges (rs : List BufRange) (s : State) (k : State → Out) : Out :=
  if rs.any rangeWraps then .refused .rangeWraps
  else if rs.any (rangeOverRegisters s.regBase) then .refused .rangeOverRegisters
  else k s

end Sys2Proof.Machine
end

