-- ==== Sys2Proof/Machine/Operands.lean ====
section
/-! DEFINITION. Operand assembly (spec/30_encoding.md R91, R93): every operand is a whole ARG register, and the one addressing
mode is the absolute address in it. -/

namespace Sys2Proof.Machine

/-- `ARG[i]`: the whole 32-bit register ARGi (00_scope.md R14). -/
def arg (s : State) (i : Fin 7) : Word := s.args[i]

/-- An `addr` operand: `ARGn[AW−1:0]` zero-extended; with AW = XLEN it is the whole register (R93). A `len`, `keybits`,
`rounds` or `olen` operand: the whole register as an unsigned number (R93). -/
def argNat (s : State) (i : Fin 7) : Nat := (arg s i).toNat

/-- The buffer range whose address is in ARGi and whose byte count is in ARGj. -/
def argRange (s : State) (i j : Fin 7) : BufRange := ⟨argNat s i, argNat s j⟩

/-- The buffer range of `n` bytes at the address in ARGi. -/
def argBlock (s : State) (i : Fin 7) (n : Nat) : BufRange := ⟨argNat s i, n⟩

/-- The string `MemRead` gives for a range. -/
def readRange (s : State) (r : BufRange) : Bytes := memRead s r.addr r.len

/-- The buffer bytes a command writes when it succeeds; none where it stores nothing (20_memory.md R83). -/
def storedRange (i : Instr) (s : State) : Option BufRange :=
  match i with
  | .feiInit => none
  | .feiEcbEnc => some (argRange s 1 2)
  | .feiEcbDec => some (argRange s 1 2)
  | .feiCbcEnc => some (argRange s 1 2)
  | .feiCbcDec => some (argRange s 1 2)
  | .feiDestroy => none
  | .spnSetkey => none
  | .spnSetkeyEnc => none
  | .spnEnc => some (argBlock s 1 16)
  | .spnDec => some (argBlock s 1 16)
  | .spnDestroy => none
  | .hashInit => none
  | .hashUpdate => none
  | .hashFinal => some (argBlock s 0 32)
  | .hmac => some (argBlock s 4 32)
  | .kdf => some (argRange s 5 6)

/-- The buffer bytes a command reads when it passes its checks (20_memory.md R83). -/
def loadedRanges (i : Instr) (s : State) : List BufRange :=
  match i with
  | .feiInit => [argRange s 0 1]
  | .feiEcbEnc => [argRange s 0 2]
  | .feiEcbDec => [argRange s 0 2]
  | .feiCbcEnc => [argBlock s 3 8, argRange s 0 2]
  | .feiCbcDec => [argBlock s 3 8, argRange s 0 2]
  | .feiDestroy => []
  | .spnSetkey => [argBlock s 0 (argNat s 1 / 8)]
  | .spnSetkeyEnc => [argBlock s 0 (argNat s 1 / 8)]
  | .spnEnc => [argBlock s 0 16]
  | .spnDec => [argBlock s 0 16]
  | .spnDestroy => []
  | .hashInit => []
  | .hashUpdate => [argRange s 0 1]
  | .hashFinal => []
  | .hmac => [argRange s 0 1, argRange s 2 3]
  | .kdf => [argRange s 0 1, argRange s 2 3]

/-- Every range a command accesses (20_memory.md R83). -/
def accessedRanges (i : Instr) (s : State) : List BufRange := loadedRanges i s ++ (storedRange i s).toList

end Sys2Proof.Machine
end

