-- ==== Sys2Proof/Machine/Feistel.lean ====
section
/-! DEFINITION. feistel_cipher_core (spec/40_feistel.md): round function, block transform, key schedule, ECB, CBC, and the
meanings of its six commands. -/

namespace Sys2Proof.Machine

abbrev RoundKeys := Vector Word 18
abbrev Boxes := Vector (Vector Word 256) 4
abbrev Halves := Word × Word

/-! ### The block transform -/

/-- A box entry, indexed by a byte. -/
def boxAt (T : Vector Word 256) (b : Byte) : Word := T[b.toNat]

/-- The round function `F` (R124): most significant byte to box 0; add, XOR, add. -/
def feistelF (S : Boxes) (x : Word) : Word :=
  ((boxAt S[0] (wordByte x 0) + boxAt S[1] (wordByte x 1)) ^^^ boxAt S[2] (wordByte x 2)) + boxAt S[3] (wordByte x 3)

/-- The round key `P[i]`. -/
def roundKey (P : RoundKeys) (i : Nat) : Word := P.toList.getD i 0

/-- One round with round key `k`, before the swap (R125, R126). -/
def feistelRound (S : Boxes) (k : Word) (x : Halves) : Halves :=
  (x.1 ^^^ k, x.2 ^^^ feistelF S (x.1 ^^^ k))

/-- Rounds with the given round keys in order, the halves swapped after each but the last (R125, R126). -/
def feistelRounds (S : Boxes) (ks : List Word) (x : Halves) : Halves :=
  match ks with
  | [] => x
  | [k] => feistelRound S k x
  | k :: rest => feistelRounds S rest (feistelRound S k x).swap

/-- `Enc` (R125): rounds with P[0] to P[15], then `R ^ P[16]` and `L ^ P[17]`. -/
def feistelEnc (P : RoundKeys) (S : Boxes) (x : Halves) : Halves :=
  let y := feistelRounds S ((List.range 16).map (roundKey P)) x
  (y.1 ^^^ roundKey P 17, y.2 ^^^ roundKey P 16)

/-- `Dec` (R126): rounds with P[17] down to P[2], then `R ^ P[1]` and `L ^ P[0]`. -/
def feistelDec (P : RoundKeys) (S : Boxes) (x : Halves) : Halves :=
  let y := feistelRounds S ((List.range 16).map fun i => roundKey P (17 - i)) x
  (y.1 ^^^ roundKey P 0, y.2 ^^^ roundKey P 1)

/-- `EncBlk` (R127), with the big-endian load and store of 20_memory.md R67. -/
def feistelEncBlk (c : FeistelCtx) (B : Bytes) : Bytes :=
  let y := feistelEnc c.P c.S (be32 B 0, be32 B 4)
  bytes32 y.1 ++ bytes32 y.2

/-- `DecBlk` (R127). -/
def feistelDecBlk (c : FeistelCtx) (B : Bytes) : Bytes :=
  let y := feistelDec c.P c.S (be32 B 0, be32 B 4)
  bytes32 y.1 ++ bytes32 y.2

/-! ### The key schedule (R128) -/

/-- Key byte number `j` of the cyclic stream: the index runs on across words, modulo the key length (R128 step 2). -/
def keyStreamByte (key : Bytes) (j : Nat) : Byte := key.getD (j % key.length) 0

/-- The word `data` that step 2 XORs into `P[i]`: four bytes of the stream, the first most significant (R128). -/
def keyStreamWord (key : Bytes) (i : Nat) : Word :=
  word4 (keyStreamByte key (4 * i)) (keyStreamByte key (4 * i + 1)) (keyStreamByte key (4 * i + 2))
    (keyStreamByte key (4 * i + 3))

/-- Steps 1 and 2: the constants with the key XORed in (R128). -/
def keyedRoundKeys (key : Bytes) : RoundKeys :=
  Vector.ofFn fun i : Fin 18 => piP[i] ^^^ keyStreamWord key i.val

/-- The running value and the schedule as far as it has been overwritten (R128 step 3). -/
structure MixState where
  P : RoundKeys
  S : Boxes
  x : Halves
deriving DecidableEq, Repr

/-- One encryption of the running value with the schedule as it is now, overwriting P[2k] and P[2k+1] (R128 step 3). -/
def mixRoundKeys (m : MixState) (k : Nat) : MixState :=
  let y := feistelEnc m.P m.S m.x
  { m with P := (m.P.setIfInBounds (2 * k) y.1).setIfInBounds (2 * k + 1) y.2, x := y }

/-- The same for entries 2k and 2k+1 of box `b` (R128 step 3). -/
def mixBoxEntry (b : Fin 4) (m : MixState) (k : Nat) : MixState :=
  let y := feistelEnc m.P m.S m.x
  { m with S := m.S.set b ((m.S[b].setIfInBounds (2 * k) y.1).setIfInBounds (2 * k + 1) y.2), x := y }

/-- All 128 pairs of box `b`. -/
def mixBox (m : MixState) (b : Fin 4) : MixState := (List.range 128).foldl (mixBoxEntry b) m

/-- `KeySchedule` (R128): 9 encryptions for P, then 128 for each box, boxes 0 to 3 in order, the running value carried on. -/
def keySchedule (key : Bytes) : RoundKeys × Boxes :=
  let m := (List.range 9).foldl mixRoundKeys { P := keyedRoundKeys key, S := piS, x := (0, 0) }
  let m := ([0, 1, 2, 3] : List (Fin 4)).foldl mixBox m
  (m.P, m.S)

/-- The context after a successful FEI_INIT with this key (R129). -/
def keyedContext (key : Bytes) : FeistelCtx :=
  { P := (keySchedule key).1, S := (keySchedule key).2, keyed := true }

/-! ### The chaining modes -/

/-- `m` blocks of 8 bytes, each transformed on its own (R130, R131). -/
def ecbBlocks (f : Bytes → Bytes) (m : Nat) (X : Bytes) : Bytes :=
  match m with
  | 0 => []
  | m + 1 => f (X.take 8) ++ ecbBlocks f m (X.drop 8)

/-- CBC encryption of `m` blocks, `prev` the IV or the ciphertext block before (R132). -/
def cbcEncBlocks (f : Bytes → Bytes) (m : Nat) (prev X : Bytes) : Bytes :=
  match m with
  | 0 => []
  | m + 1 =>
    let y := f (xorb (X.take 8) prev)
    y ++ cbcEncBlocks f m y (X.drop 8)

/-- CBC decryption of `m` blocks, `prev` the IV or the ciphertext block before (R133). -/
def cbcDecBlocks (f : Bytes → Bytes) (m : Nat) (prev X : Bytes) : Bytes :=
  match m with
  | 0 => []
  | m + 1 => xorb (f (X.take 8)) prev ++ cbcDecBlocks f m (X.take 8) (X.drop 8)

/-! ### The commands -/

/-- FEI_INIT key, klen (R129). -/
def execFeiInit (s : State) : Out :=
  require (nonNull [arg s 0]) codeNullPtr s fun s =>
  require (decide (4 ≤ argNat s 1) && decide (argNat s 1 ≤ 56)) codeInvalidLength s fun s =>
  withRanges (accessedRanges .feiInit s) s fun s =>
  endOk (setFei (keyedContext (readRange s (argRange s 0 1))) s)

/-- What the four bulk commands share: refused unless keyed (R138), the checks of R134 on the pointers given, the ranges, and
then `len` bytes at `dst`: `f` of the `len` bytes at `src` (R130 to R133). -/
def feistelBulk (i : Instr) (ptrs : List Word) (f : Bytes → Bytes) (s : State) : Out :=
  whenReady (feistelReady s) .feistelNotKeyed s fun s =>
  require (nonNull ptrs) codeNullPtr s fun s =>
  require (argNat s 2 % 8 == 0) codeInvalidLength s fun s =>
  withRanges (accessedRanges i s) s fun s =>
  endOk (memWrite (argNat s 1) (f (readRange s (argRange s 0 2))) s)

/-- FEI_ECB_ENC src, dst, len (R130). -/
def execFeiEcbEnc (s : State) : Out :=
  feistelBulk .feiEcbEnc [arg s 0, arg s 1] (ecbBlocks (feistelEncBlk s.fei) (argNat s 2 / 8)) s

/-- FEI_ECB_DEC src, dst, len (R131). -/
def execFeiEcbDec (s : State) : Out :=
  feistelBulk .feiEcbDec [arg s 0, arg s 1] (ecbBlocks (feistelDecBlk s.fei) (argNat s 2 / 8)) s

/-- FEI_CBC_ENC src, dst, len, iv (R132); the 8 bytes at `iv` are read and never written. -/
def execFeiCbcEnc (s : State) : Out :=
  feistelBulk .feiCbcEnc [arg s 0, arg s 1, arg s 3]
    (cbcEncBlocks (feistelEncBlk s.fei) (argNat s 2 / 8) (readRange s (argBlock s 3 8))) s

/-- FEI_CBC_DEC src, dst, len, iv (R133). -/
def execFeiCbcDec (s : State) : Out :=
  feistelBulk .feiCbcDec [arg s 0, arg s 1, arg s 3]
    (cbcDecBlocks (feistelDecBlk s.fei) (argNat s 2 / 8) (readRange s (argBlock s 3 8))) s

/-- FEI_DESTROY (R135): the whole context is wiped, in every state. -/
def execFeiDestroy (s : State) : Out := endOk (setFei FeistelCtx.zero s)

end Sys2Proof.Machine
end

