-- ==== Sys2Proof/Machine/Hash.lean ====
section
/-! DEFINITION. hash_compression_engine (spec/43_hash.md): the compression function, the streaming machine, and the meanings
of its three commands. -/

namespace Sys2Proof.Machine

/-! ### The compression function -/

/-- `Ch` (R231). -/
def hashCh (x y z : Word) : Word := (x &&& y) ^^^ (~~~x &&& z)

/-- `Maj` (R231). -/
def hashMaj (x y z : Word) : Word := (x &&& y) ^^^ (x &&& z) ^^^ (y &&& z)

/-- `BSIG0` (R231). -/
def bsig0 (x : Word) : Word := rotr32 x 2 ^^^ rotr32 x 13 ^^^ rotr32 x 22

/-- `BSIG1` (R231). -/
def bsig1 (x : Word) : Word := rotr32 x 6 ^^^ rotr32 x 11 ^^^ rotr32 x 25

/-- `SSIG0` (R231). -/
def ssig0 (x : Word) : Word := rotr32 x 7 ^^^ rotr32 x 18 ^^^ (x >>> 3)

/-- `SSIG1` (R231). -/
def ssig1 (x : Word) : Word := rotr32 x 17 ^^^ rotr32 x 19 ^^^ (x >>> 10)

/-- `HASH_H0[0..7]` (R232). -/
def hashH0 : Vector Word 8 :=
  #v[0x6A09E667, 0xBB67AE85, 0x3C6EF372, 0xA54FF53A, 0x510E527F, 0x9B05688C, 0x1F83D9AB, 0x5BE0CD19]

/-- `HASH_K[0..63]` (R233). -/
def hashK : List Word :=
  [0x428A2F98, 0x71374491, 0xB5C0FBCF, 0xE9B5DBA5, 0x3956C25B, 0x59F111F1, 0x923F82A4, 0xAB1C5ED5,
   0xD807AA98, 0x12835B01, 0x243185BE, 0x550C7DC3, 0x72BE5D74, 0x80DEB1FE, 0x9BDC06A7, 0xC19BF174,
   0xE49B69C1, 0xEFBE4786, 0x0FC19DC6, 0x240CA1CC, 0x2DE92C6F, 0x4A7484AA, 0x5CB0A9DC, 0x76F988DA,
   0x983E5152, 0xA831C66D, 0xB00327C8, 0xBF597FC7, 0xC6E00BF3, 0xD5A79147, 0x06CA6351, 0x14292967,
   0x27B70A85, 0x2E1B2138, 0x4D2C6DFC, 0x53380D13, 0x650A7354, 0x766A0ABB, 0x81C2C92E, 0x92722C85,
   0xA2BFE8A1, 0xA81A664B, 0xC24B8B70, 0xC76C51A3, 0xD192E819, 0xD6990624, 0xF40E3585, 0x106AA070,
   0x19A4C116, 0x1E376C08, 0x2748774C, 0x34B0BCB5, 0x391C0CB3, 0x4ED8AA4A, 0x5B9CCA4F, 0x682E6FF3,
   0x748F82EE, 0x78A5636F, 0x84C87814, 0x8CC70208, 0x90BEFFFA, 0xA4506CEB, 0xBEF9A3F7, 0xC67178F2]

/-- `W[0..63]` of a 64-byte block: the 16 message words, then the recurrence (R236). -/
def messageSchedule (blk : Bytes) : List Word :=
  (List.range' 16 48).foldl
    (fun W t => W ++ [ssig1 (W.getD (t - 2) 0) + W.getD (t - 7) 0 + ssig0 (W.getD (t - 15) 0) + W.getD (t - 16) 0])
    ((List.range 16).map fun t => be32 blk (4 * t))

/-- The working variables `a` to `h` (R236). -/
structure HashVars where
  a : Word
  b : Word
  c : Word
  d : Word
  e : Word
  f : Word
  g : Word
  h : Word
deriving DecidableEq, Repr

/-- Round `t` with its constant and message word (R236). -/
def hashRound (v : HashVars) (k w : Word) : HashVars :=
  let t1 := v.h + bsig1 v.e + hashCh v.e v.f v.g + k + w
  let t2 := bsig0 v.a + hashMaj v.a v.b v.c
  { a := t1 + t2, b := v.a, c := v.b, d := v.c, e := v.d + t1, f := v.e, g := v.f, h := v.g }

/-- `Compress` (R236). -/
def hashCompress (H : Vector Word 8) (blk : Bytes) : Vector Word 8 :=
  let v0 : HashVars :=
    { a := H[0], b := H[1], c := H[2], d := H[3], e := H[4], f := H[5], g := H[6], h := H[7] }
  let v := (List.zip hashK (messageSchedule blk)).foldl (fun v p => hashRound v p.1 p.2) v0
  #v[H[0] + v.a, H[1] + v.b, H[2] + v.c, H[3] + v.d, H[4] + v.e, H[5] + v.f, H[6] + v.g, H[7] + v.h]

/-! ### The streaming machine -/

/-- `AddBits` (R237): the low half is added exactly, its carry goes into the high half, which wraps. -/
def addBits (hc : HashCtx) (n : Nat) : HashCtx :=
  let s := hc.cntLo.toNat + n
  { hc with cntHi := if 2 ^ 32 ≤ s then hc.cntHi + 1 else hc.cntHi, cntLo := BitVec.ofNat 32 s }

/-- `HashInit` (R234). -/
def hashInitCtx : HashCtx :=
  { H := hashH0, cntLo := 0, cntHi := 0, buf := Vector.replicate 64 0, fill := 0 }

/-- One byte of `Absorb`: into the buffer, and a compression when the buffer is full (R235). -/
def absorbByte (hc : HashCtx) (x : Byte) : HashCtx :=
  let buf := hc.buf.set hc.fill x
  if h : hc.fill.val + 1 < 64 then { hc with buf := buf, fill := ⟨hc.fill.val + 1, h⟩ }
  else addBits { hc with H := hashCompress hc.H buf.toList, buf := buf, fill := 0 } 512

/-- `Absorb` (R235). -/
def absorb (hc : HashCtx) (X : Bytes) : HashCtx := X.foldl absorbByte hc

/-- The bytes absorbed and not yet compressed, `buf[0..fill)` (10_state.md R34). -/
def pendingBytes (hc : HashCtx) : Bytes := hc.buf.toList.take hc.fill.val

/-- The message length in bits: the counter and the bits still in the buffer, modulo 2^64 (R241). -/
def totalBits (hc : HashCtx) : BitVec 64 :=
  BitVec.ofNat 64 (hc.cntHi.toNat * 2 ^ 32 + hc.cntLo.toNat + 8 * hc.fill.val)

/-- The digest of a running state: its words big-endian in order (R241, 20_memory.md R69). -/
def digestOf (H : Vector Word 8) : Bytes := H.toList.flatMap bytes32

/-- `Finalize` (R241): marker, zeros and length in the last block, with one extra compression when they do not fit. -/
def finalize (hc : HashCtx) : Bytes :=
  let blk := pendingBytes hc ++ [0x80]
  if 56 ≤ hc.fill.val then
    let H := hashCompress hc.H (blk ++ zeroBytes (64 - blk.length))
    digestOf (hashCompress H (zeroBytes 56 ++ bytes64 (totalBits hc)))
  else digestOf (hashCompress hc.H (blk ++ zeroBytes (56 - blk.length) ++ bytes64 (totalBits hc)))

/-- `HashFn` (R243). -/
def hashFn (M : Bytes) : Bytes := finalize (absorb hashInitCtx M)

/-! ### The commands -/

/-- HASH_INIT (R238): legal in every state, discards a hash in progress. -/
def execHashInit (s : State) : Out := endOk (setHash { ctx := hashInitCtx, active := true } s)

/-- HASH_UPDATE src, len (R239). -/
def execHashUpdate (s : State) : Out :=
  whenReady (hashReady s) .hashNotActive s fun s =>
  require (nonNull [arg s 0]) codeNullPtr s fun s =>
  withRanges (accessedRanges .hashUpdate s) s fun s =>
  endOk (setHash { s.hash with ctx := absorb s.hash.ctx (readRange s (argRange s 0 1)) } s)

/-- HASH_FINAL dst (R240): the digest is written, then the context is zeroed. -/
def execHashFinal (s : State) : Out :=
  whenReady (hashReady s) .hashNotActive s fun s =>
  require (nonNull [arg s 0]) codeNullPtr s fun s =>
  withRanges (accessedRanges .hashFinal s) s fun s =>
  endOk (setHash HashUnit.zero (memWrite (argNat s 0) (finalize s.hash.ctx) s))

end Sys2Proof.Machine
end

