-- ==== Sys2Proof/Machine/Hmac.lean ====
section
/-! DEFINITION. hmac_wrapper (spec/44_hmac.md): key reduction, the keyed hash, and the meaning of HMAC. -/

namespace Sys2Proof.Machine

/-- `K0` (R271): a key longer than 64 bytes is hashed first, then zero-padded to 64 bytes; none is rejected (R275). -/
def hmacKey (key : Bytes) : Bytes :=
  let k := if 64 < key.length then hashFn key else key
  k ++ zeroBytes (64 - k.length)

/-- The pad of a reduced key with a byte, 0x36 for the inner and 0x5C for the outer (R272). -/
def hmacPad (key : Bytes) (p : Byte) : Bytes := (hmacKey key).map (· ^^^ p)

/-- `Hmac` (R272). -/
def hmacFn (key msg : Bytes) : Bytes :=
  hashFn (hmacPad key 0x5C ++ hashFn (hmacPad key 0x36 ++ msg))

/-- HMAC key, klen, msg, mlen, dst (R273); scratch is zero again at the end (R274), `hash` is not touched (R270). -/
def execHmac (s : State) : Out :=
  require (nonNull [arg s 0, arg s 2, arg s 4]) codeNullPtr s fun s =>
  withRanges (accessedRanges .hmac s) s fun s =>
  endOk (setScratch Scratch.zero
    (memWrite (argNat s 4) (hmacFn (readRange s (argRange s 0 1)) (readRange s (argRange s 2 3))) s))

end Sys2Proof.Machine
end

