-- ==== Sys2Proof/Machine/Kdf.lean ====
section
/-! DEFINITION. pbkdf2_iterator (spec/45_kdf.md): the block function, the output loop, and the meaning of KDF. -/

namespace Sys2Proof.Machine

/-- `n` more iterations of the block function: `U = Hmac(pw, U)`, `T = XORB(T, U)` (R286). -/
def kdfIterate (pw : Bytes) (n : Nat) (U T : Bytes) : Bytes :=
  match n with
  | 0 => T
  | n + 1 => kdfIterate pw n (hmacFn pw U) (xorb T (hmacFn pw U))

/-- `KdfBlock` (R286): `U1` and the remaining `rounds − 1` iterations. -/
def kdfBlock (pw salt : Bytes) (rounds : Nat) (count : Word) : Bytes :=
  kdfIterate pw (rounds - 1) (hmacFn pw (salt ++ bytes32 count)) (hmacFn pw (salt ++ bytes32 count))

/-- The output loop with `rem` bytes still to produce, from block `count` on; `fuel` bounds the blocks (R287). -/
def kdfLoop (pw salt : Bytes) (rounds : Nat) (fuel count rem : Nat) : Bytes :=
  match fuel with
  | 0 => []
  | fuel + 1 =>
    (kdfBlock pw salt rounds (BitVec.ofNat 32 count)).take (min rem 32) ++
      kdfLoop pw salt rounds fuel (count + 1) (rem - 32)

/-- `Kdf` (R287): ceil(olen / 32) blocks from `count` = 1. -/
def kdfFn (pw salt : Bytes) (rounds olen : Nat) : Bytes :=
  kdfLoop pw salt rounds ((olen + 31) / 32) 1 olen

/-- KDF pw, pwlen, salt, slen, rounds, dst, olen (R288); scratch is zero again at the end (R289). Nothing is allocated, so
there is no allocation failure (R290). -/
def execKdf (s : State) : Out :=
  require (nonNull [arg s 0, arg s 2, arg s 5]) codeNullPtr s fun s =>
  require (argNat s 3 != 0 && argNat s 6 != 0 && argNat s 4 != 0) codeInvalidParameters s fun s =>
  withRanges (accessedRanges .kdf s) s fun s =>
  endOk (setScratch Scratch.zero
    (memWrite (argNat s 5)
      (kdfFn (readRange s (argRange s 0 1)) (readRange s (argRange s 2 3)) (argNat s 4) (argNat s 6)) s))

end Sys2Proof.Machine
end

