-- ==== Sys2Proof/Machine/Spn.lean ====
section
/-! DEFINITION. spn_cipher_core (spec/42_spn.md): field arithmetic, the steps of a round, key expansion, block transform, and
the meanings of its five commands. -/

namespace Sys2Proof.Machine

/-! ### Arithmetic (R181) -/

/-- Multiplication by `x` modulo 0x11B (R181). -/
def xtime (a : Byte) : Byte := if a.getLsbD 7 then (a <<< 1) ^^^ 0x1B else a <<< 1

/-- `xtime` applied `i` times (R181). -/
def xtimeN (i : Nat) (a : Byte) : Byte :=
  match i with
  | 0 => a
  | i + 1 => xtime (xtimeN i a)

/-- `a · b`: the XOR over the set bits `i` of `b` of `xtime` applied `i` times to `a` (R181). -/
def gmul (a b : Byte) : Byte :=
  (List.range 8).foldl (fun acc i => if b.getLsbD i then acc ^^^ xtimeN i a else acc) 0

/-- `SBOX[a]` (R182). -/
def sbox (a : Byte) : Byte := sboxTable[a.toNat]

/-- `ISBOX[a]` (R183). -/
def isbox (a : Byte) : Byte := isboxTable[a.toNat]

/-- The affine map `A` in the definition of SBOX (R182). -/
def sboxAffine (x : Byte) : Byte :=
  x ^^^ x.rotateRight 4 ^^^ x.rotateRight 5 ^^^ x.rotateRight 6 ^^^ x.rotateRight 7 ^^^ 0x63

/-! ### The cipher state (R185) -/

/-- The 4×4 byte array `s[r][c]`, kept in address order: byte `r + 4c` of the block (R185). -/
abbrev Block := Vector Byte 16

/-- `s[r][c]` (R185). -/
def cell (s : Block) (r c : Fin 4) : Byte := s[r.val + 4 * c.val]

/-- The array with `s[r][c]` = `f r c`. -/
def blockOf (f : Fin 4 → Fin 4 → Byte) : Block :=
  Vector.ofFn fun i : Fin 16 => f ⟨i.val % 4, Nat.mod_lt _ (by decide)⟩ ⟨i.val / 4, by omega⟩

/-- The state of a 16-byte string (R185). -/
def blockOfBytes (B : Bytes) : Block := Vector.ofFn fun i : Fin 16 => B.getD i.val 0

/-- A schedule word, 0 past the end. -/
def scheduleWord (k : Vector Word 60) (i : Nat) : Word := k.toList.getD i 0

/-- `AddRoundKey` with round key `r` of a schedule: column `c` is XORed with word `4r + c` (R185). -/
def addRoundKey (k : Vector Word 60) (rnd : Nat) (s : Block) : Block :=
  blockOf fun r c => cell s r c ^^^ wordByte (scheduleWord k (4 * rnd + c.val)) r.val

/-- `SubBytes` (R186). -/
def subBytes (s : Block) : Block := blockOf fun r c => sbox (cell s r c)

/-- `InvSubBytes` (R186). -/
def invSubBytes (s : Block) : Block := blockOf fun r c => isbox (cell s r c)

/-- `ShiftRows`: row `r` rotates left by `r`; `Fin 4` addition is modulo 4 (R186). -/
def shiftRows (s : Block) : Block := blockOf fun r c => cell s r (c + r)

/-- `InvShiftRows` (R186). -/
def invShiftRows (s : Block) : Block := blockOf fun r c => cell s r (c - r)

/-- One column times the matrix whose rows are the rotations of the coefficients `k0 k1 k2 k3` (R187, R188): entry `r` is
`k0·s[r] ^ k1·s[r+1] ^ k2·s[r+2] ^ k3·s[r+3]`, indices modulo 4. -/
def mixWith (k0 k1 k2 k3 : Byte) (s : Block) : Block :=
  blockOf fun r c =>
    gmul (cell s r c) k0 ^^^ gmul (cell s (r + 1) c) k1 ^^^ gmul (cell s (r + 2) c) k2 ^^^ gmul (cell s (r + 3) c) k3

/-- `MixColumns` (R187). -/
def mixColumns (s : Block) : Block := mixWith 2 3 1 1 s

/-- `InvMixColumns` (R188). -/
def invMixColumns (s : Block) : Block := mixWith 14 11 13 9 s

/-! ### Words of the schedule -/

/-- `SubWord` (R186). -/
def subWord (w : Word) : Word :=
  word4 (sbox (wordByte w 0)) (sbox (wordByte w 1)) (sbox (wordByte w 2)) (sbox (wordByte w 3))

/-- `RotWord` (R186). -/
def rotWord (w : Word) : Word := rotl32 w 8

/-- `InvMixWord`: inverse column mixing of the one column held in a word, row 0 most significant (R188). -/
def invMixWord (w : Word) : Word :=
  let a := wordByte w 0
  let b := wordByte w 1
  let c := wordByte w 2
  let d := wordByte w 3
  word4 (gmul a 14 ^^^ gmul b 11 ^^^ gmul c 13 ^^^ gmul d 9) (gmul a 9 ^^^ gmul b 14 ^^^ gmul c 11 ^^^ gmul d 13)
    (gmul a 13 ^^^ gmul b 9 ^^^ gmul c 14 ^^^ gmul d 11) (gmul a 11 ^^^ gmul b 13 ^^^ gmul c 9 ^^^ gmul d 14)

/-! ### Key expansion -/

/-- The rounds count of a key length in bits; none is the sentinel "0 rounds" of any other length (R180, R190). -/
def roundsOfKeybits (keybits : Nat) : Rounds :=
  if keybits = 128 then .r10 else if keybits = 192 then .r12 else if keybits = 256 then .r14 else .none

/-- The next word of the schedule, `W[i]` with `i` = the words there are (R190). -/
def nextScheduleWord (nk : Nat) (W : List Word) (i : Nat) : Word :=
  let t := W.getD (i - 1) 0
  let t := if i % nk = 0 then subWord (rotWord t) ^^^ rcon.getD (i / nk - 1) 0
    else if nk = 8 ∧ i % nk = 4 then subWord t else t
  W.getD (i - nk) 0 ^^^ t

/-- `ExpandEnc` (R190): the rounds count and `4 × (rounds + 1)` words, or 0 rounds and no words. -/
def expandEnc (key : Bytes) (keybits : Nat) : Rounds × List Word :=
  match roundsOfKeybits keybits with
  | .none => (.none, [])
  | r =>
    let nk := keybits / 32
    let n := 4 * (roundsNat r + 1)
    (r, (List.range' nk (n - nk)).foldl (fun W i => W ++ [nextScheduleWord nk W i])
      ((List.range nk).map fun i => be32 key (4 * i)))

/-- `ExpandDec` (R191): the round keys in reverse order, inverse column mixing on all but the first and the last. -/
def expandDec (nr : Nat) (W : List Word) : List Word :=
  (List.range (4 * (nr + 1))).map fun i =>
    let w := W.getD (4 * (nr - i / 4) + i % 4) 0
    if 4 ≤ i ∧ i < 4 * nr then invMixWord w else w

/-- A schedule in its 60-word array, zeros after the last word (10_state.md R29). -/
def scheduleArray (W : List Word) : Vector Word 60 := Vector.ofFn fun i : Fin 60 => W.getD i.val 0

/-! ### The block transform -/

/-- One full encryption round with round key `r` (R193). -/
def encRound (ek : Vector Word 60) (s : Block) (r : Nat) : Block :=
  addRoundKey ek r (mixColumns (shiftRows (subBytes s)))

/-- `EncBlock` (R193). -/
def spnEncBlock (nr : Nat) (ek : Vector Word 60) (B : Bytes) : Bytes :=
  let s := (List.range' 1 (nr - 1)).foldl (encRound ek) (addRoundKey ek 0 (blockOfBytes B))
  (addRoundKey ek nr (shiftRows (subBytes s))).toList

/-- One full decryption round with round key `r` (R194). -/
def decRound (dk : Vector Word 60) (s : Block) (r : Nat) : Block :=
  addRoundKey dk r (invMixColumns (invShiftRows (invSubBytes s)))

/-- `DecBlock` (R194). -/
def spnDecBlock (nr : Nat) (dk : Vector Word 60) (B : Bytes) : Bytes :=
  let s := (List.range' 1 (nr - 1)).foldl (decRound dk) (addRoundKey dk 0 (blockOfBytes B))
  (addRoundKey dk nr (invShiftRows (invSubBytes s))).toList

/-! ### The table form (R192, informative) -/

/-- `Te0[x]` (R192). -/
def te0 (x : Byte) : Word := word4 (gmul (sbox x) 2) (sbox x) (sbox x) (gmul (sbox x) 3)

/-- Output column `c` of a full round in table form, `Te1`, `Te2`, `Te3` being rotations of `Te0` (R192). -/
def tableColumn (ek : Vector Word 60) (s : Block) (r : Nat) (c : Fin 4) : Word :=
  te0 (cell s 0 c) ^^^ rotr32 (te0 (cell s 1 (c + 1))) 8 ^^^ rotr32 (te0 (cell s 2 (c + 2))) 16 ^^^
    rotr32 (te0 (cell s 3 (c + 3))) 24 ^^^ scheduleWord ek (4 * r + c.val)

/-- A full round in table form (R192). -/
def encRoundByTables (ek : Vector Word 60) (s : Block) (r : Nat) : Block :=
  blockOf fun row c => wordByte (tableColumn ek s r c) row.val

/-! ### The commands -/

/-- The context a set-key command leaves: both schedules, or the encryption schedule only (R195, R196). -/
def expandedContext (encOnly : Bool) (key : Bytes) (keybits : Nat) : SpnCtx :=
  let e := expandEnc key keybits
  { Nr := e.1
    encOnly := encOnly
    ek := scheduleArray e.2
    dk := if encOnly then Vector.replicate 60 0 else scheduleArray (expandDec (roundsNat e.1) e.2) }

/-- What the two set-key commands share (R195, R196): the null check, the key size, then the context and the round count. -/
def spnSetKey (i : Instr) (encOnly : Bool) (s : State) : Out :=
  require (nonNull [arg s 0]) codeNullPtr s fun s =>
  require (roundsOfKeybits (argNat s 1) != .none) codeInvalidLength s fun s =>
  withRanges (accessedRanges i s) s fun s =>
  endWith (roundsWord (roundsOfKeybits (argNat s 1)))
    (setSpn (expandedContext encOnly (readRange s (argBlock s 0 (argNat s 1 / 8))) (argNat s 1)) s)

/-- SPN_SETKEY key, keybits (R195). -/
def execSpnSetkey (s : State) : Out := spnSetKey .spnSetkey false s

/-- SPN_SETKEY_ENC key, keybits (R196). -/
def execSpnSetkeyEnc (s : State) : Out := spnSetKey .spnSetkeyEnc true s

/-- What the two block commands share after the lifecycle rule (R197, R198). -/
def spnBlockCommand (i : Instr) (f : Bytes → Bytes) (s : State) : Out :=
  require (nonNull [arg s 0, arg s 1]) codeNullPtr s fun s =>
  withRanges (accessedRanges i s) s fun s =>
  endOk (memWrite (argNat s 1) (f (readRange s (argBlock s 0 16))) s)

/-- SPN_ENC src, dst (R197). -/
def execSpnEnc (s : State) : Out :=
  whenReady (spnHasKey s) .spnNoSchedule s fun s =>
  spnBlockCommand .spnEnc (spnEncBlock (roundsNat s.spn.Nr) s.spn.ek) s

/-- SPN_DEC src, dst (R198). -/
def execSpnDec (s : State) : Out :=
  whenReady (spnHasKey s) .spnNoSchedule s fun s =>
  whenReady (spnHasDecryption s) .spnEncryptOnly s fun s =>
  spnBlockCommand .spnDec (spnDecBlock (roundsNat s.spn.Nr) s.spn.dk) s

/-- SPN_DESTROY (R199): the whole context is wiped, in every state. -/
def execSpnDestroy (s : State) : Out := endOk (setSpn SpnCtx.zero s)

end Sys2Proof.Machine
end

