-- ==== Sys2Proof/Machine/Dispatch.lean ====
section
/-! DEFINITION. The dispatch: one arm per command of spec/30_encoding.md R92. -/

namespace Sys2Proof.Machine

def exec (i : Instr) (s : State) : Host.Outcome State Fault Refusal :=
  match i with
  | .feiInit => Sys2Proof.Machine.execFeiInit s
  | .feiEcbEnc => Sys2Proof.Machine.execFeiEcbEnc s
  | .feiEcbDec => Sys2Proof.Machine.execFeiEcbDec s
  | .feiCbcEnc => Sys2Proof.Machine.execFeiCbcEnc s
  | .feiCbcDec => Sys2Proof.Machine.execFeiCbcDec s
  | .feiDestroy => Sys2Proof.Machine.execFeiDestroy s
  | .spnSetkey => Sys2Proof.Machine.execSpnSetkey s
  | .spnSetkeyEnc => Sys2Proof.Machine.execSpnSetkeyEnc s
  | .spnEnc => Sys2Proof.Machine.execSpnEnc s
  | .spnDec => Sys2Proof.Machine.execSpnDec s
  | .spnDestroy => Sys2Proof.Machine.execSpnDestroy s
  | .hashInit => Sys2Proof.Machine.execHashInit s
  | .hashUpdate => Sys2Proof.Machine.execHashUpdate s
  | .hashFinal => Sys2Proof.Machine.execHashFinal s
  | .hmac => Sys2Proof.Machine.execHmac s
  | .kdf => Sys2Proof.Machine.execKdf s

end Sys2Proof.Machine
end

