-- ==== Sys2Proof/Machine/HostPort.lean ====
section
/-! DEFINITION. What each host access does (spec/10_state.md R40 to R45, 30_encoding.md R94 to R97, 70_reset_and_hazards.md
R340, 60_exceptions.md R320), and the host's side of issuing commands (R94, R99, R100). -/

namespace Sys2Proof.Machine

/-- A write of a CMD value: the value is stored; a command is then executed to its end; any other value executes no operation
and gives INVALID_PARAMETERS (R94, R97). -/
def hostWriteCmd (v : Word) (s : State) : Out :=
  match decode v with
  | .ok i => exec i (setCmd v s)
  | .error _ => endFail codeInvalidParameters (setCmd v s)

/-- A host write to a register: CMD triggers, ARGn stores, STATUS and RESULT ignore it (R41 to R45). -/
def hostWriteReg (n : RegNo) (v : Word) (s : State) : Out :=
  if n.val = 0 then hostWriteCmd v s
  else if n.val ≤ 7 then .next (setArg (n.val - 1) v s)
  else .next s

/-- The value a host read of a register returns (R41 to R44); the read itself has no side effect (R45, log 17). -/
def hostRead (s : State) (n : RegNo) : Word :=
  if n.val = 0 then s.cmd
  else if n.val ≤ 7 then s.args.toList.getD (n.val - 1) 0
  else if n.val = 8 then s.status
  else s.result

/-- The register at an address: register `n` is at byte offset `4n` from the place the platform maps the block to, if it maps
it (R40). The sum does not wrap: a register past the top of the address space has no address (DESIGN CHOICE, log 3). -/
def registerAt (base : Option Word) (addr : Word) : Option RegNo :=
  match base with
  | none => none
  | some b =>
    if b.toNat ≤ addr.toNat ∧ (addr.toNat - b.toNat) % 4 = 0 then
      if h : (addr.toNat - b.toNat) / 4 < 10 then some ⟨(addr.toNat - b.toNat) / 4, h⟩ else none
    else none

/-- An access to the register at an address is the access to that register by its number (R40); where no register is mapped it
is a fault of the model (log 3). -/
def atRegister (addr : Word) (k : RegNo → State → Out) (s : State) : Out :=
  match registerAt s.regBase addr with
  | some n => k n s
  | none => .fault .noRegisterAtAddress

/-- The value a host read at an address returns (R40, R41 to R44). -/
def hostReadAt (s : State) (addr : Word) : Option Word := (registerAt s.regBase addr).map (hostRead s)

/-- A host read of a register changes nothing (R45). -/
def hostReadReg (_n : RegNo) (s : State) : Out := .next s

/-- A store of the host's own into Mem: the bytes must lie at buffer addresses (20_memory.md R61, R62; log 5). -/
def hostStore (addr : Word) (B : Bytes) (s : State) : Out :=
  if addr = 0 ∨ rangeWraps ⟨addr.toNat, B.length⟩ ∨ rangeOverRegisters s.regBase ⟨addr.toNat, B.length⟩ then
    .fault .hostStoreOutsideMem
  else .next (memWrite addr.toNat B s)

/-- The reset event: every element but Mem takes its reset value (R340, R47). The platform's wiring, the accesses the host
has still to make, and the count of power returns are no state of the core (log 1, log 2, log 3). -/
def resetCore (s : State) : State :=
  { State.reset with mem := s.mem, host := s.host, regBase := s.regBase, powerUps := s.powerUps }

/-- Power is lost and comes back: all state is lost, Mem included, and the core is in its reset state (60_exceptions.md R320,
log 16). -/
def powerUpCore (s : State) : State :=
  { State.reset with host := s.host, regBase := s.regBase, powerUps := s.powerUps + 1 }

/-- One host access. -/
def hostStep (a : HostAccess) (s : State) : Out :=
  match a with
  | .writeReg n v => hostWriteReg n v s
  | .readReg n => hostReadReg n s
  | .writeAt addr v => atRegister addr (fun n => hostWriteReg n v) s
  | .readAt addr => atRegister addr hostReadReg s
  | .store addr B => hostStore addr B s
  | .reset => .next (resetCore s)
  | .powerCycle => .next (powerUpCore s)

/-- The host accesses that issue a command: its register writes in order (R94, R99). -/
def accessesOf (c : Command) : List HostAccess := (assemble c).map fun p => .writeReg p.1 p.2

/-- Host accesses one after the other, as far as each has a next state. -/
def runAccesses (as : List HostAccess) (s : State) : Out :=
  match as with
  | [] => .next s
  | a :: rest =>
    match hostStep a s with
    | .next t => runAccesses rest t
    | .fault r => .fault r
    | .refused r => .refused r

/-- A sequence of commands; after one that ends with a status other than NO_ERROR the following are not issued (R100). -/
def issueAll (cs : List Command) (s : State) : Out :=
  match cs with
  | [] => .next s
  | c :: rest =>
    match runAccesses (accessesOf c) s with
    | .next t => if t.status = codeNoError then issueAll rest t else .next t
    | .fault r => .fault r
    | .refused r => .refused r

/-- Issuing a pseudo-command (R100). -/
def issuePseudo (p : Pseudo) (s : State) : Out := issueAll (expandPseudo p) s

end Sys2Proof.Machine
end

