-- ==== Sys2Proof/Machine/Step.lean ====
section
/-! DEFINITION. One step: the oldest host access still to come happens; with none waiting nothing changes (log 1). -/

namespace Sys2Proof.Machine

/-- One step of the machine. -/
def step (s : State) : Host.Outcome State Fault Refusal :=
  match s.host with
  | [] => .next s
  | a :: rest => hostStep a (setHost rest s)

/-- `s` with a host write of the CMD word `w` as the next access, so that the very next step decodes and runs it (log 1). -/
def State.withFetchWord (s : State) (nbits w : Nat) : State :=
  setHost (.writeReg 0 (tableWord nbits w) :: s.host) s

end Sys2Proof.Machine
end

