-- ==== Sys2Proof/Safety.lean ====
section
/-! DEFINITION. The terms the statements use: when a range may be accessed, the invariants of the state (spec/10_state.md R26,
R31, R33, R36, R37, R43, R44), the codes a command may write (60_exceptions.md R321). -/

namespace Sys2Proof.Machine

/-- A range that a command may access: it does not wrap past the top of the address space, and unless it is empty it shares
no byte with the 40 bytes of the register block where a platform maps it (20_memory.md R74, R76). -/
abbrev RangeOk (s : State) (r : BufRange) : Prop :=
  r.addr + r.len ≤ 2 ^ 32 ∧
    (s.regBase.all fun b =>
      decide (r.len = 0 ∨ r.addr + r.len ≤ b.toNat ∨ b.toNat + 40 ≤ r.addr)) = true

/-- A context that is not keyed is all zero (R26). -/
abbrev FeistelInv (s : State) : Prop := s.fei.keyed = false → s.fei = FeistelCtx.zero

/-- No key: all zero. Encrypt-only: no decryption schedule. No schedule word past `4 × (Nr + 1)` (R29, R30, R31). -/
abbrev SpnInv (s : State) : Prop :=
  (s.spn.Nr = .none → s.spn = SpnCtx.zero) ∧
    (s.spn.encOnly = true → ∀ i : Fin 60, s.spn.dk[i] = 0) ∧
      (∀ i : Fin 60, 4 * (roundsNat s.spn.Nr + 1) ≤ i.val → s.spn.ek[i] = 0 ∧ s.spn.dk[i] = 0)

/-- No hash in progress: all zero (R36). The counter counts blocks of 512 bits (R33). -/
abbrev HashInv (s : State) : Prop :=
  (s.hash.active = false → s.hash = HashUnit.zero) ∧ s.hash.ctx.cntLo.toNat % 512 = 0

/-- Every scratch byte and word is 0 between commands (R37). -/
abbrev ScratchInv (s : State) : Prop := s.scratch = Scratch.zero

/-- STATUS holds NO_ERROR, INVALID_LENGTH, NULL_PTR or INVALID_PARAMETERS: never UNTESTED, no bit above 2 (R43, R303). -/
abbrev StatusInv (s : State) : Prop := s.status ∈ [(0 : Word), 2, 3, 4]

/-- RESULT holds 0 or a round count (R44). -/
abbrev ResultInv (s : State) : Prop := s.result ∈ [(0 : Word), 10, 12, 14]

/-- Mem is in its canonical form. -/
abbrev MemInv (s : State) : Prop := Memory.wf s.mem = true

/-- The invariant of the machine. -/
abbrev CoreInv (s : State) : Prop :=
  FeistelInv s ∧ SpnInv s ∧ HashInv s ∧ ScratchInv s ∧ StatusInv s ∧ ResultInv s ∧ MemInv s

/-- Every field of a hash-context value is 0. -/
abbrev HashCtxAllZero (c : HashCtx) : Prop :=
  (∀ i : Fin 8, c.H[i] = 0) ∧ c.cntLo = 0 ∧ c.cntHi = 0 ∧ (∀ i : Fin 64, c.buf[i] = 0) ∧ c.fill = 0

/-- The values R47 gives every element but Mem after reset, written out. -/
abbrev ResetValuesHold (s : State) : Prop :=
  ((∀ i : Fin 18, s.fei.P[i] = 0) ∧ (∀ b : Fin 4, ∀ i : Fin 256, s.fei.S[b][i] = 0) ∧ s.fei.keyed = false) ∧
    (roundsNat s.spn.Nr = 0 ∧ s.spn.encOnly = false ∧ (∀ i : Fin 60, s.spn.ek[i] = 0 ∧ s.spn.dk[i] = 0)) ∧
      (HashCtxAllZero s.hash.ctx ∧ s.hash.active = false) ∧
        (HashCtxAllZero s.scratch.hc0 ∧ HashCtxAllZero s.scratch.hc1 ∧
          (∀ i : Fin 64, s.scratch.k0[i] = 0 ∧ s.scratch.ipad[i] = 0 ∧ s.scratch.opad[i] = 0) ∧
            (∀ i : Fin 32, s.scratch.inner[i] = 0 ∧ s.scratch.U[i] = 0 ∧ s.scratch.T[i] = 0) ∧
              (∀ i : Fin 4, s.scratch.cnt[i] = 0)) ∧
          (s.cmd = 0 ∧ (∀ i : Fin 7, s.args[i] = 0) ∧ s.status = 0 ∧ s.result = 0)

/-- The codes each command can write (60_exceptions.md R321). -/
def codesOf (i : Instr) : List Word :=
  match i with
  | .feiInit => [0, 2, 3]
  | .feiEcbEnc => [0, 2, 3]
  | .feiEcbDec => [0, 2, 3]
  | .feiCbcEnc => [0, 2, 3]
  | .feiCbcDec => [0, 2, 3]
  | .feiDestroy => [0]
  | .spnSetkey => [0, 2, 3]
  | .spnSetkeyEnc => [0, 2, 3]
  | .spnEnc => [0, 3]
  | .spnDec => [0, 3]
  | .spnDestroy => [0]
  | .hashInit => [0]
  | .hashUpdate => [0, 3]
  | .hashFinal => [0, 3]
  | .hmac => [0, 3]
  | .kdf => [0, 3, 4]

/-- The four Feistel bulk commands. -/
def bulkCommands : List Instr := [.feiEcbEnc, .feiEcbDec, .feiCbcEnc, .feiCbcDec]

/-- The lifecycle allows the command in this state (40_feistel.md R138, 42_spn.md R200, 43_hash.md R242). -/
def lifecycleAllows (i : Instr) (s : State) : Prop :=
  (i ∈ bulkCommands → s.fei.keyed = true) ∧ (i = .spnEnc → s.spn.Nr ≠ .none) ∧
    (i = .spnDec → s.spn.Nr ≠ .none ∧ s.spn.encOnly = false) ∧
      (i = .hashUpdate ∨ i = .hashFinal → s.hash.active = true)

/-- No check of the command fails with a code: no address operand is NULL, and the length and parameter checks of its rule
pass (60_exceptions.md R308 steps 3 to 5, R321). -/
def checksPass (i : Instr) (s : State) : Prop :=
  (∀ k : Fin 7, (operandKinds i)[k.val]? = some .addr → arg s k ≠ 0) ∧
    (i = .feiInit → 4 ≤ argNat s 1 ∧ argNat s 1 ≤ 56) ∧ (i ∈ bulkCommands → argNat s 2 % 8 = 0) ∧
      (i = .spnSetkey ∨ i = .spnSetkeyEnc → argNat s 1 ∈ [128, 192, 256]) ∧
        (i = .kdf → argNat s 3 ≠ 0 ∧ argNat s 6 ≠ 0 ∧ argNat s 4 ≠ 0)

/-- The value of the bit counter, `cnt_hi × 2^32 + cnt_lo` (R33). -/
def counterValue (hc : HashCtx) : Nat := hc.cntHi.toNat * 2 ^ 32 + hc.cntLo.toNat

end Sys2Proof.Machine
end

