-- ==== Sys2Proof/Certificates/Slice0/Obligations.lean ====
section
/-! DEFINITION. The statements for the provers. Each docstring names the rule of spec/ it formalises. -/

open Sys2Proof Sys2Proof.Machine

/-! ### The interface and the encoding -/

/-- 30_encoding.md R92: the sixteen CMD words, each written out from the opcode map, decode to their commands. -/
def Obligations.OpcodeMapWordsDecode : Prop :=
  decode 0x00000010 = .ok .feiInit ∧ decode 0x00000011 = .ok .feiEcbEnc ∧ decode 0x00000012 = .ok .feiEcbDec ∧
  decode 0x00000013 = .ok .feiCbcEnc ∧ decode 0x00000014 = .ok .feiCbcDec ∧ decode 0x0000001F = .ok .feiDestroy ∧
  decode 0x00000020 = .ok .spnSetkey ∧ decode 0x00000021 = .ok .spnSetkeyEnc ∧ decode 0x00000022 = .ok .spnEnc ∧
  decode 0x00000023 = .ok .spnDec ∧ decode 0x0000002F = .ok .spnDestroy ∧ decode 0x00000030 = .ok .hashInit ∧
  decode 0x00000031 = .ok .hashUpdate ∧ decode 0x00000032 = .ok .hashFinal ∧ decode 0x00000040 = .ok .hmac ∧
  decode 0x00000050 = .ok .kdf

/-- 30_encoding.md R92 (every mask is 0xFFFFFFFF), R98: a word is the encoding of a command exactly when it decodes to it. -/
def Obligations.DecodeInvertsEncodeBothWays : Prop :=
  ∀ (w : Word) (i : Instr), decode w = .ok i ↔ w = encode i

/-- 30_encoding.md R95, R96, R97 (with the model's queue of host accesses, log 1: the access is taken from it): a CMD value with a
set `rsv` bit or a reserved opcode executes no operation. -/
def Obligations.IllegalAndReservedWordsDoNothing : Prop :=
  ∀ (s : State) (v : Word) (rest : List HostAccess), s.host = .writeReg 0 v :: rest →
    (2 ^ 8 ≤ v.toNat ∨ v.toNat ≤ 0x0F ∨ (0x15 ≤ v.toNat ∧ v.toNat ≤ 0x1E) ∨ (0x24 ≤ v.toNat ∧ v.toNat ≤ 0x2E) ∨
      (0x33 ≤ v.toNat ∧ v.toNat ≤ 0x3F) ∨ (0x41 ≤ v.toNat ∧ v.toNat ≤ 0x4F) ∨ 0x51 ≤ v.toNat) →
    step s = .next { s with host := rest, cmd := v, status := 4, result := 0 }

/-- 30_encoding.md R94 (with the model's queue of host accesses, log 1): a step whose access is a CMD write of a command's
word is exec of that command on the state with the access taken and the value stored; with no access nothing changes. -/
def Obligations.StepRunsTheDecodedCommand : Prop :=
  (∀ (s : State) (v : Word) (rest : List HostAccess) (i : Instr), s.host = .writeReg 0 v :: rest → decode v = .ok i →
    step s = exec i { s with host := rest, cmd := v }) ∧
  (∀ s : State, s.host = [] → step s = .next s)

/-- 10_state.md R41 to R45 (with the model's queue of host accesses, log 1): register reads have no side effect, a write to ARGn
changes only ARGn, a write to STATUS or RESULT changes nothing; a read returns CMD, ARG0 to ARG6, STATUS or RESULT by the
register's number, so what it returns depends on the registers alone: the contexts and scratch have no port. -/
def Obligations.RegisterAccessesOtherThanCmd : Prop :=
  (∀ (s : State) (n : RegNo) (rest : List HostAccess), s.host = .readReg n :: rest →
    step s = .next { s with host := rest }) ∧
  (∀ (s : State) (n : RegNo) (v : Word) (rest : List HostAccess), s.host = .writeReg n v :: rest →
    1 ≤ n.val → n.val ≤ 7 →
    ∃ t, step s = .next t ∧ hostRead t n = v ∧ (∀ m : RegNo, m ≠ n → hostRead t m = hostRead s m) ∧
      t = { s with host := rest, args := t.args }) ∧
  (∀ (s : State) (n : RegNo) (v : Word) (rest : List HostAccess), s.host = .writeReg n v :: rest → 8 ≤ n.val →
    step s = .next { s with host := rest }) ∧
  (∀ (s t : State) (n : RegNo), t.cmd = s.cmd → t.args = s.args → t.status = s.status → t.result = s.result →
    hostRead t n = hostRead s n) ∧
  (∀ s : State, hostRead s 0 = s.cmd ∧ (∀ k : Fin 7, hostRead s ⟨k.val + 1, by omega⟩ = arg s k) ∧
    hostRead s 8 = s.status ∧ hostRead s 9 = s.result)

/-- 10_state.md R40 (with the model's queue, log 1, and its reading of addresses where no register is, log 3): where the platform
maps the register block, an access at byte offset `4n` from REG_BASE is the access to register `n`, and a read there returns
its value; anywhere else in the address space, and where the block is not mapped, such an access reaches no register. -/
def Obligations.AddressedAccessesReachTheirRegister : Prop :=
  (∀ (s : State) (b : Word) (n : RegNo), s.regBase = some b → b.toNat + 4 * n.val < 2 ^ 32 →
    hostReadAt s (BitVec.ofNat 32 (b.toNat + 4 * n.val)) = some (hostRead s n) ∧
    (∀ rest : List HostAccess, s.host = .readAt (BitVec.ofNat 32 (b.toNat + 4 * n.val)) :: rest →
      step s = .next { s with host := rest }) ∧
    (∀ (v : Word) (rest : List HostAccess), s.host = .writeAt (BitVec.ofNat 32 (b.toNat + 4 * n.val)) v :: rest →
      step s = step { s with host := .writeReg n v :: rest })) ∧
  (∀ (s : State) (addr : Word), (∀ b n, s.regBase = some b → addr.toNat ≠ b.toNat + 4 * (n : RegNo).val) →
    hostReadAt s addr = none ∧
    (∀ rest : List HostAccess, s.host = .readAt addr :: rest → step s = .fault .noRegisterAtAddress) ∧
    (∀ (v : Word) (rest : List HostAccess), s.host = .writeAt addr v :: rest → step s = .fault .noRegisterAtAddress))

/-- 20_memory.md R62, R65 (the host's own store as an access of the model's queue, log 1 and log 5): the bytes stored read back, every other byte is as before. -/
def Obligations.HostStoreWritesItsBytesOnly : Prop :=
  ∀ (s : State) (addr : Word) (B : Bytes) (rest : List HostAccess), s.host = .store addr B :: rest →
    addr ≠ 0 → RangeOk s ⟨addr.toNat, B.length⟩ →
    ∃ t, step s = .next t ∧ memRead t addr.toNat B.length = B ∧
      (∀ a, a < addr.toNat ∨ addr.toNat + B.length ≤ a → readByte t a = readByte s a) ∧
      t = { s with host := rest, mem := t.mem }

/-- 10_state.md R47, 70_reset_and_hazards.md R340, 60_exceptions.md R320: the reset values, at State.reset, after a reset event
(Mem unchanged) and after power comes back. The model's choices: that either event is an access of the queue and leaves the rest
of the queue alone (log 1), and that no byte of Mem holds a value when power comes back (log 16, DEDUCED). -/
def Obligations.ResetAndPowerUpValues : Prop :=
  ResetValuesHold State.reset ∧
  (∀ (s : State) (rest : List HostAccess), s.host = .reset :: rest →
    ∃ t, step s = .next t ∧ ResetValuesHold t ∧ t.mem = s.mem ∧ (∀ a, readByte t a = readByte s a) ∧ t.host = rest) ∧
  (∀ (s : State) (rest : List HostAccess), s.host = .powerCycle :: rest →
    ∃ t, step s = .next t ∧ ResetValuesHold t ∧ (∀ a, lookupByte t.mem a = none) ∧ t.host = rest)

/-- 30_encoding.md R94, R99 (issuing as host accesses, log 1): issuing a well-formed line is its command run with the operands in ARG0, ARG1, … and its word in
CMD, every other ARG register and everything else as before. -/
def Obligations.AssembledLineRunsItsCommand : Prop :=
  ∀ (c : Command) (s : State), c.wf = true →
    ∃ u, runAccesses (accessesOf c) s = exec c.instr u ∧ (∀ k : Fin 7, arg u k = c.operands.getD k.val (arg s k)) ∧
      u = { s with cmd := encode c.instr, args := u.args }

/-! ### Memory -/

/-- 20_memory.md R64, R65: MemRead gives the byte at each address of the range, MemWrite sets each byte of the range and no
other, and a zero-length write changes nothing. -/
def Obligations.MemReadAndMemWrite : Prop :=
  (∀ (s : State) (a n i : Nat), (memRead s a n).length = n ∧ (i < n → (memRead s a n)[i]? = some (readByte s (a + i)))) ∧
  (∀ (s : State) (a : Nat) (B : Bytes) (i : Nat) (h : i < B.length), readByte (memWrite a B s) (a + i) = B[i]) ∧
  (∀ (s : State) (a b : Nat) (B : Bytes), b < a ∨ a + B.length ≤ b → readByte (memWrite a B s) b = readByte s b) ∧
  (∀ (s : State) (a : Nat), memWrite a [] s = s)

/-! ### The Feistel unit -/

/-- 40_feistel.md R129, FEI_INIT. -/
def Obligations.FeiInitBuildsTheKeySchedule : Prop :=
  decode 0x10 = .ok .feiInit ∧ ∀ s : State,
    (arg s 0 = 0 → exec .feiInit s = .next { s with status := 3, result := 0 }) ∧
    (arg s 0 ≠ 0 → (argNat s 1 < 4 ∨ 56 < argNat s 1) → exec .feiInit s = .next { s with status := 2, result := 0 }) ∧
    (arg s 0 ≠ 0 → 4 ≤ argNat s 1 → argNat s 1 ≤ 56 → RangeOk s ⟨argNat s 0, argNat s 1⟩ →
      exec .feiInit s = .next { s with
        fei := { P := (keySchedule (memRead s (argNat s 0) (argNat s 1))).1
                 S := (keySchedule (memRead s (argNat s 0) (argNat s 1))).2
                 keyed := true }
        status := 0, result := 0 })

/-- 40_feistel.md R130, FEI_ECB_ENC. -/
def Obligations.FeiEcbEncEncryptsEachBlock : Prop :=
  decode 0x11 = .ok .feiEcbEnc ∧ ∀ s : State,
    (s.fei.keyed = false → exec .feiEcbEnc s = .refused .feistelNotKeyed) ∧
    (s.fei.keyed = true → (arg s 0 = 0 ∨ arg s 1 = 0) → exec .feiEcbEnc s = .next { s with status := 3, result := 0 }) ∧
    (s.fei.keyed = true → arg s 0 ≠ 0 → arg s 1 ≠ 0 → argNat s 2 % 8 ≠ 0 →
      exec .feiEcbEnc s = .next { s with status := 2, result := 0 }) ∧
    (s.fei.keyed = true → arg s 0 ≠ 0 → arg s 1 ≠ 0 → argNat s 2 % 8 = 0 →
      RangeOk s ⟨argNat s 0, argNat s 2⟩ → RangeOk s ⟨argNat s 1, argNat s 2⟩ →
      exec .feiEcbEnc s = .next { s with
        mem := writeBytes s.mem (argNat s 1)
          (ecbBlocks (feistelEncBlk s.fei) (argNat s 2 / 8) (memRead s (argNat s 0) (argNat s 2)))
        status := 0, result := 0 })

/-- 40_feistel.md R131, FEI_ECB_DEC. -/
def Obligations.FeiEcbDecDecryptsEachBlock : Prop :=
  decode 0x12 = .ok .feiEcbDec ∧ ∀ s : State,
    (s.fei.keyed = false → exec .feiEcbDec s = .refused .feistelNotKeyed) ∧
    (s.fei.keyed = true → (arg s 0 = 0 ∨ arg s 1 = 0) → exec .feiEcbDec s = .next { s with status := 3, result := 0 }) ∧
    (s.fei.keyed = true → arg s 0 ≠ 0 → arg s 1 ≠ 0 → argNat s 2 % 8 ≠ 0 →
      exec .feiEcbDec s = .next { s with status := 2, result := 0 }) ∧
    (s.fei.keyed = true → arg s 0 ≠ 0 → arg s 1 ≠ 0 → argNat s 2 % 8 = 0 →
      RangeOk s ⟨argNat s 0, argNat s 2⟩ → RangeOk s ⟨argNat s 1, argNat s 2⟩ →
      exec .feiEcbDec s = .next { s with
        mem := writeBytes s.mem (argNat s 1)
          (ecbBlocks (feistelDecBlk s.fei) (argNat s 2 / 8) (memRead s (argNat s 0) (argNat s 2)))
        status := 0, result := 0 })

/-- 40_feistel.md R132, FEI_CBC_ENC. -/
def Obligations.FeiCbcEncChainsTheBlocks : Prop :=
  decode 0x13 = .ok .feiCbcEnc ∧ ∀ s : State,
    (s.fei.keyed = false → exec .feiCbcEnc s = .refused .feistelNotKeyed) ∧
    (s.fei.keyed = true → (arg s 0 = 0 ∨ arg s 1 = 0 ∨ arg s 3 = 0) →
      exec .feiCbcEnc s = .next { s with status := 3, result := 0 }) ∧
    (s.fei.keyed = true → arg s 0 ≠ 0 → arg s 1 ≠ 0 → arg s 3 ≠ 0 → argNat s 2 % 8 ≠ 0 →
      exec .feiCbcEnc s = .next { s with status := 2, result := 0 }) ∧
    (s.fei.keyed = true → arg s 0 ≠ 0 → arg s 1 ≠ 0 → arg s 3 ≠ 0 → argNat s 2 % 8 = 0 →
      RangeOk s ⟨argNat s 0, argNat s 2⟩ → RangeOk s ⟨argNat s 1, argNat s 2⟩ → RangeOk s ⟨argNat s 3, 8⟩ →
      exec .feiCbcEnc s = .next { s with
        mem := writeBytes s.mem (argNat s 1)
          (cbcEncBlocks (feistelEncBlk s.fei) (argNat s 2 / 8) (memRead s (argNat s 3) 8)
            (memRead s (argNat s 0) (argNat s 2)))
        status := 0, result := 0 })

/-- 40_feistel.md R133, FEI_CBC_DEC. -/
def Obligations.FeiCbcDecUnchainsTheBlocks : Prop :=
  decode 0x14 = .ok .feiCbcDec ∧ ∀ s : State,
    (s.fei.keyed = false → exec .feiCbcDec s = .refused .feistelNotKeyed) ∧
    (s.fei.keyed = true → (arg s 0 = 0 ∨ arg s 1 = 0 ∨ arg s 3 = 0) →
      exec .feiCbcDec s = .next { s with status := 3, result := 0 }) ∧
    (s.fei.keyed = true → arg s 0 ≠ 0 → arg s 1 ≠ 0 → arg s 3 ≠ 0 → argNat s 2 % 8 ≠ 0 →
      exec .feiCbcDec s = .next { s with status := 2, result := 0 }) ∧
    (s.fei.keyed = true → arg s 0 ≠ 0 → arg s 1 ≠ 0 → arg s 3 ≠ 0 → argNat s 2 % 8 = 0 →
      RangeOk s ⟨argNat s 0, argNat s 2⟩ → RangeOk s ⟨argNat s 1, argNat s 2⟩ → RangeOk s ⟨argNat s 3, 8⟩ →
      exec .feiCbcDec s = .next { s with
        mem := writeBytes s.mem (argNat s 1)
          (cbcDecBlocks (feistelDecBlk s.fei) (argNat s 2 / 8) (memRead s (argNat s 3) 8)
            (memRead s (argNat s 0) (argNat s 2)))
        status := 0, result := 0 })

/-- 40_feistel.md R135, FEI_DESTROY: in every state, and issued again it leaves the same state. -/
def Obligations.FeiDestroyWipesTheContext : Prop :=
  decode 0x1F = .ok .feiDestroy ∧ ∀ s : State,
    ∃ t, exec .feiDestroy s = .next t ∧ (∀ i : Fin 18, t.fei.P[i] = 0) ∧
      (∀ b : Fin 4, ∀ i : Fin 256, t.fei.S[b][i] = 0) ∧ t.fei.keyed = false ∧
      t = { s with fei := t.fei, status := 0, result := 0 } ∧ exec .feiDestroy t = .next t

/-- 40_feistel.md R130, R131: block `i` of an ECB output is the transform of block `i` of the input. -/
def Obligations.EcbOutputIsBlockwise : Prop :=
  ∀ (f : Bytes → Bytes) (m i : Nat) (X : Bytes), (∀ B, (f B).length = 8) → X.length = 8 * m → i < m →
    ((ecbBlocks f m X).drop (8 * i)).take 8 = f ((X.drop (8 * i)).take 8)

/-- 40_feistel.md R132: block `i` of a CBC ciphertext is the transform of input block `i` XORed with the IV (`i` = 0) or with
ciphertext block `i − 1`. -/
def Obligations.CbcEncOutputIsAChain : Prop :=
  ∀ (f : Bytes → Bytes) (m i : Nat) (V X : Bytes), (∀ B, (f B).length = 8) → V.length = 8 → X.length = 8 * m → i < m →
    ((cbcEncBlocks f m V X).drop (8 * i)).take 8 =
      f (xorb ((X.drop (8 * i)).take 8)
        (if i = 0 then V else ((cbcEncBlocks f m V X).drop (8 * (i - 1))).take 8))

/-- 40_feistel.md R133: block `i` of a CBC plaintext is the transform of input block `i`, XORed with the IV (`i` = 0) or with
input block `i − 1`. -/
def Obligations.CbcDecOutputIsBlockwise : Prop :=
  ∀ (f : Bytes → Bytes) (m i : Nat) (V X : Bytes), (∀ B, (f B).length = 8) → V.length = 8 → X.length = 8 * m → i < m →
    ((cbcDecBlocks f m V X).drop (8 * i)).take 8 =
      xorb (f ((X.drop (8 * i)).take 8)) (if i = 0 then V else (X.drop (8 * (i - 1))).take 8)

/-- 40_feistel.md R126: decryption and encryption undo each other for any content of the context, keyed or not. -/
def Obligations.FeistelDecAndEncUndoEachOther : Prop :=
  ∀ (P : RoundKeys) (S : Boxes) (x : Halves),
    feistelDec P S (feistelEnc P S x) = x ∧ feistelEnc P S (feistelDec P S x) = x

/-- 40_feistel.md R131: FEI_ECB_DEC of the output of FEI_ECB_ENC, written wherever the host likes, is the input. -/
def Obligations.EcbCommandsRoundTrip : Prop :=
  ∀ (s : State) (back : Word), s.fei.keyed = true → arg s 0 ≠ 0 → arg s 1 ≠ 0 → argNat s 2 % 8 = 0 →
    RangeOk s ⟨argNat s 0, argNat s 2⟩ → RangeOk s ⟨argNat s 1, argNat s 2⟩ →
    back ≠ 0 → RangeOk s ⟨back.toNat, argNat s 2⟩ →
    ∃ t u, exec .feiEcbEnc s = .next t ∧ exec .feiEcbDec (setArg 0 (arg s 1) (setArg 1 back t)) = .next u ∧
      u.status = 0 ∧ memRead u back.toNat (argNat s 2) = memRead s (argNat s 0) (argNat s 2)

/-- 40_feistel.md R133: FEI_CBC_DEC of the output of FEI_CBC_ENC, with an IV that the output does not overwrite, is the
input. -/
def Obligations.CbcCommandsRoundTrip : Prop :=
  ∀ (s : State) (back : Word), s.fei.keyed = true → arg s 0 ≠ 0 → arg s 1 ≠ 0 → arg s 3 ≠ 0 → argNat s 2 % 8 = 0 →
    RangeOk s ⟨argNat s 0, argNat s 2⟩ → RangeOk s ⟨argNat s 1, argNat s 2⟩ → RangeOk s ⟨argNat s 3, 8⟩ →
    (argNat s 3 + 8 ≤ argNat s 1 ∨ argNat s 1 + argNat s 2 ≤ argNat s 3) →
    back ≠ 0 → RangeOk s ⟨back.toNat, argNat s 2⟩ →
    ∃ t u, exec .feiCbcEnc s = .next t ∧ exec .feiCbcDec (setArg 0 (arg s 1) (setArg 1 back t)) = .next u ∧
      u.status = 0 ∧ memRead u back.toNat (argNat s 2) = memRead s (argNat s 0) (argNat s 2)

/-- 70_reset_and_hazards.md R347: a CBC encryption split in two, the second part with the last 8 bytes of the first output as its
IV, gives the same ciphertext. -/
def Obligations.CbcEncryptionSplits : Prop :=
  ∀ (f : Bytes → Bytes) (m n : Nat) (V X : Bytes), (∀ B, (f B).length = 8) → V.length = 8 → X.length = 8 * (m + n) →
    0 < m →
    cbcEncBlocks f (m + n) V X =
      cbcEncBlocks f m V (X.take (8 * m)) ++
        cbcEncBlocks f n ((cbcEncBlocks f m V (X.take (8 * m))).drop (8 * (m - 1))) (X.drop (8 * m))

/-! ### The SPN unit -/

/-- 42_spn.md R195, SPN_SETKEY. -/
def Obligations.SpnSetkeyExpandsBothSchedules : Prop :=
  decode 0x20 = .ok .spnSetkey ∧ ∀ s : State,
    (arg s 0 = 0 → exec .spnSetkey s = .next { s with status := 3, result := 0 }) ∧
    (arg s 0 ≠ 0 → argNat s 1 ∉ [128, 192, 256] → exec .spnSetkey s = .next { s with status := 2, result := 0 }) ∧
    (arg s 0 ≠ 0 → argNat s 1 ∈ [128, 192, 256] → RangeOk s ⟨argNat s 0, argNat s 1 / 8⟩ →
      ∃ (t : State) (W : List Word),
        expandEnc (memRead s (argNat s 0) (argNat s 1 / 8)) (argNat s 1) = (t.spn.Nr, W) ∧
        roundsNat t.spn.Nr = argNat s 1 / 32 + 6 ∧ W.length = 4 * (roundsNat t.spn.Nr + 1) ∧
        exec .spnSetkey s = .next t ∧ t.spn.encOnly = false ∧
        (∀ i : Fin 60, t.spn.ek[i] = if i.val < W.length then W.getD i.val 0 else 0) ∧
        (∀ i : Fin 60, t.spn.dk[i] = if i.val < W.length then (expandDec (roundsNat t.spn.Nr) W).getD i.val 0 else 0) ∧
        t = { s with spn := t.spn, status := 0, result := BitVec.ofNat 32 (argNat s 1 / 32 + 6) })

/-- 42_spn.md R196, SPN_SETKEY_ENC. -/
def Obligations.SpnSetkeyEncExpandsOneSchedule : Prop :=
  decode 0x21 = .ok .spnSetkeyEnc ∧ ∀ s : State,
    (arg s 0 = 0 → exec .spnSetkeyEnc s = .next { s with status := 3, result := 0 }) ∧
    (arg s 0 ≠ 0 → argNat s 1 ∉ [128, 192, 256] → exec .spnSetkeyEnc s = .next { s with status := 2, result := 0 }) ∧
    (arg s 0 ≠ 0 → argNat s 1 ∈ [128, 192, 256] → RangeOk s ⟨argNat s 0, argNat s 1 / 8⟩ →
      ∃ (t : State) (W : List Word),
        expandEnc (memRead s (argNat s 0) (argNat s 1 / 8)) (argNat s 1) = (t.spn.Nr, W) ∧
        roundsNat t.spn.Nr = argNat s 1 / 32 + 6 ∧ W.length = 4 * (roundsNat t.spn.Nr + 1) ∧
        exec .spnSetkeyEnc s = .next t ∧ t.spn.encOnly = true ∧
        (∀ i : Fin 60, t.spn.ek[i] = if i.val < W.length then W.getD i.val 0 else 0) ∧
        (∀ i : Fin 60, t.spn.dk[i] = 0) ∧
        t = { s with spn := t.spn, status := 0, result := BitVec.ofNat 32 (argNat s 1 / 32 + 6) })

/-- 42_spn.md R197, SPN_ENC. -/
def Obligations.SpnEncEncryptsOneBlock : Prop :=
  decode 0x22 = .ok .spnEnc ∧ ∀ s : State,
    (s.spn.Nr = .none → exec .spnEnc s = .refused .spnNoSchedule) ∧
    (s.spn.Nr ≠ .none → (arg s 0 = 0 ∨ arg s 1 = 0) → exec .spnEnc s = .next { s with status := 3, result := 0 }) ∧
    (s.spn.Nr ≠ .none → arg s 0 ≠ 0 → arg s 1 ≠ 0 → RangeOk s ⟨argNat s 0, 16⟩ → RangeOk s ⟨argNat s 1, 16⟩ →
      exec .spnEnc s = .next { s with
        mem := writeBytes s.mem (argNat s 1) (spnEncBlock (roundsNat s.spn.Nr) s.spn.ek (memRead s (argNat s 0) 16))
        status := 0, result := 0 })

/-- 42_spn.md R198, SPN_DEC. -/
def Obligations.SpnDecDecryptsOneBlock : Prop :=
  decode 0x23 = .ok .spnDec ∧ ∀ s : State,
    (s.spn.Nr = .none → exec .spnDec s = .refused .spnNoSchedule) ∧
    (s.spn.Nr ≠ .none → s.spn.encOnly = true → exec .spnDec s = .refused .spnEncryptOnly) ∧
    (s.spn.Nr ≠ .none → s.spn.encOnly = false → (arg s 0 = 0 ∨ arg s 1 = 0) →
      exec .spnDec s = .next { s with status := 3, result := 0 }) ∧
    (s.spn.Nr ≠ .none → s.spn.encOnly = false → arg s 0 ≠ 0 → arg s 1 ≠ 0 →
      RangeOk s ⟨argNat s 0, 16⟩ → RangeOk s ⟨argNat s 1, 16⟩ →
      exec .spnDec s = .next { s with
        mem := writeBytes s.mem (argNat s 1) (spnDecBlock (roundsNat s.spn.Nr) s.spn.dk (memRead s (argNat s 0) 16))
        status := 0, result := 0 })

/-- 42_spn.md R199, SPN_DESTROY: in every state, and issued again it leaves the same state. -/
def Obligations.SpnDestroyWipesTheContext : Prop :=
  decode 0x2F = .ok .spnDestroy ∧ ∀ s : State,
    ∃ t, exec .spnDestroy s = .next t ∧ (∀ i : Fin 60, t.spn.ek[i] = 0 ∧ t.spn.dk[i] = 0) ∧
      roundsNat t.spn.Nr = 0 ∧ t.spn.encOnly = false ∧
      t = { s with spn := t.spn, status := 0, result := 0 } ∧ exec .spnDestroy t = .next t

/-- 42_spn.md R182, R183: SBOX is the affine map of the inverse, ISBOX undoes it. -/
def Obligations.SubstitutionTablesMeetTheirDefinition : Prop :=
  sbox 0 = sboxAffine 0 ∧ (∀ a : Byte, a ≠ 0 → ∃ b, gmul a b = 1 ∧ sbox a = sboxAffine b) ∧ ∀ a : Byte, isbox (sbox a) = a

/-- 42_spn.md R188: InvMixColumns undoes MixColumns. -/
def Obligations.InvMixColumnsUndoesMixColumns : Prop :=
  ∀ s : Block, invMixColumns (mixColumns s) = s

/-- 42_spn.md R192: a full round in table form is the round of R193. -/
def Obligations.TableFormRoundIsTheRound : Prop :=
  ∀ (ek : Vector Word 60) (s : Block) (r : Nat), encRoundByTables ek s r = encRound ek s r

/-- 42_spn.md R194: for every key of a legal size, DecBlock with the decryption schedule undoes EncBlock. -/
def Obligations.SpnDecBlockUndoesEncBlock : Prop :=
  ∀ (key B : Bytes) (keybits : Nat) (nr : Rounds) (W : List Word),
    keybits ∈ [128, 192, 256] → key.length = keybits / 8 → B.length = 16 → expandEnc key keybits = (nr, W) →
    spnDecBlock (roundsNat nr) (scheduleArray (expandDec (roundsNat nr) W))
      (spnEncBlock (roundsNat nr) (scheduleArray W) B) = B

/-- 42_spn.md R198: after SPN_SETKEY, SPN_DEC of the output of SPN_ENC of a block is the block. -/
def Obligations.SpnCommandsRoundTrip : Prop :=
  ∀ (s0 s : State) (back : Word),
    arg s0 0 ≠ 0 → argNat s0 1 ∈ [128, 192, 256] → RangeOk s0 ⟨argNat s0 0, argNat s0 1 / 8⟩ →
    exec .spnSetkey s0 = .next s → ∀ (src dst : Word), src ≠ 0 → dst ≠ 0 → back ≠ 0 →
    RangeOk s ⟨src.toNat, 16⟩ → RangeOk s ⟨dst.toNat, 16⟩ → RangeOk s ⟨back.toNat, 16⟩ →
    ∃ t u, exec .spnEnc (setArg 0 src (setArg 1 dst s)) = .next t ∧
      exec .spnDec (setArg 0 dst (setArg 1 back t)) = .next u ∧ u.status = 0 ∧
      memRead u back.toNat 16 = memRead s src.toNat 16

/-! ### The hash, HMAC and key-stretching units -/

/-- 43_hash.md R238, HASH_INIT: in every state; the field values of R234 and R232. -/
def Obligations.HashInitStartsAHash : Prop :=
  decode 0x30 = .ok .hashInit ∧ ∀ s : State,
    ∃ t, exec .hashInit s = .next t ∧
      t.hash.ctx.H.toList = [0x6A09E667, 0xBB67AE85, 0x3C6EF372, 0xA54FF53A, 0x510E527F, 0x9B05688C, 0x1F83D9AB, 0x5BE0CD19] ∧
      t.hash.ctx.cntLo = 0 ∧ t.hash.ctx.cntHi = 0 ∧ (∀ i : Fin 64, t.hash.ctx.buf[i] = 0) ∧ t.hash.ctx.fill = 0 ∧
      t.hash.active = true ∧ t = { s with hash := t.hash, status := 0, result := 0 } ∧ exec .hashInit t = .next t

/-- 43_hash.md R239, HASH_UPDATE. -/
def Obligations.HashUpdateAbsorbsItsBytes : Prop :=
  decode 0x31 = .ok .hashUpdate ∧ ∀ s : State,
    (s.hash.active = false → exec .hashUpdate s = .refused .hashNotActive) ∧
    (s.hash.active = true → arg s 0 = 0 → exec .hashUpdate s = .next { s with status := 3, result := 0 }) ∧
    (s.hash.active = true → arg s 0 ≠ 0 → RangeOk s ⟨argNat s 0, argNat s 1⟩ →
      exec .hashUpdate s = .next { s with
        hash := { ctx := absorb s.hash.ctx (memRead s (argNat s 0) (argNat s 1)), active := true }
        status := 0, result := 0 }) ∧
    (s.hash.active = true → arg s 0 ≠ 0 → argNat s 1 = 0 →
      exec .hashUpdate s = .next { s with status := 0, result := 0 })

/-- 43_hash.md R240, HASH_FINAL. -/
def Obligations.HashFinalWritesTheDigest : Prop :=
  decode 0x32 = .ok .hashFinal ∧ ∀ s : State,
    (s.hash.active = false → exec .hashFinal s = .refused .hashNotActive) ∧
    (s.hash.active = true → arg s 0 = 0 → exec .hashFinal s = .next { s with status := 3, result := 0 }) ∧
    (s.hash.active = true → arg s 0 ≠ 0 → RangeOk s ⟨argNat s 0, 32⟩ →
      ∃ t, exec .hashFinal s = .next t ∧ HashCtxAllZero t.hash.ctx ∧ t.hash.active = false ∧
        t = { s with mem := writeBytes s.mem (argNat s 0) (finalize s.hash.ctx), hash := t.hash, status := 0, result := 0 })

/-- 43_hash.md R237: AddBits adds to the pair as one 64-bit counter and changes nothing else. -/
def Obligations.AddBitsIsA64BitCounter : Prop :=
  ∀ (hc : HashCtx) (n : Nat), n < 2 ^ 32 →
    counterValue (addBits hc n) = (counterValue hc + n) % 2 ^ 64 ∧
      addBits hc n = { hc with cntLo := (addBits hc n).cntLo, cntHi := (addBits hc n).cntHi }

/-- 43_hash.md R235, R241: absorbing adds 8 bits a byte to the length that the digest will carry, modulo 2^64. -/
def Obligations.AbsorbCountsEveryByte : Prop :=
  ∀ (hc : HashCtx) (X : Bytes),
    (totalBits (absorb hc X)).toNat = ((totalBits hc).toNat + 8 * X.length) % 2 ^ 64

/-- 43_hash.md R235: two updates over adjacent ranges leave the hash context that one update over both leaves. -/
def Obligations.HashUpdatesConcatenate : Prop :=
  ∀ (s : State) (n m : Word), s.hash.active = true → arg s 0 ≠ 0 → argNat s 0 + n.toNat < 2 ^ 32 →
    RangeOk s ⟨argNat s 0, n.toNat + m.toNat⟩ →
    ∃ t u v, exec .hashUpdate (setArg 1 n s) = .next t ∧
      exec .hashUpdate (setArg 0 (arg s 0 + n) (setArg 1 m t)) = .next u ∧
      exec .hashUpdate (setArg 1 (n + m) s) = .next v ∧ u.hash = v.hash ∧ u.status = 0 ∧ v.status = 0

/-- 43_hash.md R230, R243, 44_hmac.md R272: the digest of any message is 32 bytes, so is the keyed hash of any key and message. -/
def Obligations.DigestsAre32Bytes : Prop :=
  (∀ M : Bytes, (hashFn M).length = 32) ∧ ∀ key msg : Bytes, (hmacFn key msg).length = 32

/-- 30_encoding.md R100, 43_hash.md R243 (issuing is the model's, log 1 and log 15): the pseudo-command HASH writes the digest of
its bytes, and nothing else in Mem. -/
def Obligations.HashPseudoCommandWritesHashFn : Prop :=
  ∀ (s : State) (src len dst : Word), src ≠ 0 → dst ≠ 0 → RangeOk s ⟨src.toNat, len.toNat⟩ → RangeOk s ⟨dst.toNat, 32⟩ →
    ∃ t, issuePseudo (.hash src len dst) s = .next t ∧ t.status = 0 ∧
      memRead t dst.toNat 32 = hashFn (memRead s src.toNat len.toNat) ∧
      (∀ a, a < dst.toNat ∨ dst.toNat + 32 ≤ a → readByte t a = readByte s a) ∧ t.hash = State.reset.hash

/-- 30_encoding.md R100, the other half (issuing is the model's, log 1 and log 15): FEI_ENC_BLK and FEI_DEC_BLK are the ECB
commands with length 8, in every state; the pseudo-command HASH with a NULL `src` ends at HASH_UPDATE, HASH_FINAL not issued;
with a NULL `dst` it ends at HASH_FINAL with the hash still in progress. -/
def Obligations.PseudoCommandsExpandAndStopAtAFailure : Prop :=
  (∀ (s : State) (src dst : Word),
    issuePseudo (.feiEncBlk src dst) s = exec .feiEcbEnc (setCmd 0x11 (setArg 2 8 (setArg 1 dst (setArg 0 src s)))) ∧
    issuePseudo (.feiDecBlk src dst) s = exec .feiEcbDec (setCmd 0x12 (setArg 2 8 (setArg 1 dst (setArg 0 src s))))) ∧
  (∀ (s : State) (src dst : Word), s.fei.keyed = true → src ≠ 0 → dst ≠ 0 →
    RangeOk s ⟨src.toNat, 8⟩ → RangeOk s ⟨dst.toNat, 8⟩ →
    ∃ t u, issuePseudo (.feiEncBlk src dst) s = .next t ∧ issuePseudo (.feiDecBlk src dst) s = .next u ∧
      t.status = 0 ∧ u.status = 0 ∧
      t.mem = writeBytes s.mem dst.toNat (feistelEncBlk s.fei (memRead s src.toNat 8)) ∧
      u.mem = writeBytes s.mem dst.toNat (feistelDecBlk s.fei (memRead s src.toNat 8))) ∧
  (∀ (s : State) (len dst : Word),
    issuePseudo (.hash 0 len dst) s = .next { s with
      cmd := 0x31, args := (setArg 1 len (setArg 0 0 s)).args, hash := { ctx := hashInitCtx, active := true }
      status := 3, result := 0 }) ∧
  (∀ (s : State) (src len : Word), src ≠ 0 → RangeOk s ⟨src.toNat, len.toNat⟩ →
    issuePseudo (.hash src len 0) s = .next { s with
      cmd := 0x32, args := (setArg 1 len (setArg 0 0 s)).args
      hash := { ctx := absorb hashInitCtx (memRead s src.toNat len.toNat), active := true }
      status := 3, result := 0 })

/-- 44_hmac.md R273, HMAC. -/
def Obligations.HmacWritesTheKeyedHash : Prop :=
  decode 0x40 = .ok .hmac ∧ ∀ s : State,
    ((arg s 0 = 0 ∨ arg s 2 = 0 ∨ arg s 4 = 0) → exec .hmac s = .next { s with status := 3, result := 0 }) ∧
    (arg s 0 ≠ 0 → arg s 2 ≠ 0 → arg s 4 ≠ 0 → RangeOk s ⟨argNat s 0, argNat s 1⟩ → RangeOk s ⟨argNat s 2, argNat s 3⟩ →
      RangeOk s ⟨argNat s 4, 32⟩ →
      exec .hmac s = .next { s with
        mem := writeBytes s.mem (argNat s 4)
          (hmacFn (memRead s (argNat s 0) (argNat s 1)) (memRead s (argNat s 2) (argNat s 3)))
        scratch := Scratch.zero, status := 0, result := 0 })

/-- 44_hmac.md R271, R275: a key longer than 64 bytes acts as its digest does, whatever its length; a key of up to 64 bytes is
padded with zeros and used as it is. -/
def Obligations.LongHmacKeysAreHashed : Prop :=
  (∀ key msg : Bytes, 64 < key.length → hmacFn key msg = hmacFn (hashFn key) msg) ∧
  (∀ key : Bytes, key.length ≤ 64 → hmacKey key = key ++ List.replicate (64 - key.length) 0) ∧
  (∀ key : Bytes, (hmacKey key).length = 64)

/-- 45_kdf.md R288, KDF. -/
def Obligations.KdfWritesTheDerivedKey : Prop :=
  decode 0x50 = .ok .kdf ∧ ∀ s : State,
    ((arg s 0 = 0 ∨ arg s 2 = 0 ∨ arg s 5 = 0) → exec .kdf s = .next { s with status := 3, result := 0 }) ∧
    (arg s 0 ≠ 0 → arg s 2 ≠ 0 → arg s 5 ≠ 0 → (argNat s 3 = 0 ∨ argNat s 6 = 0 ∨ argNat s 4 = 0) →
      exec .kdf s = .next { s with status := 4, result := 0 }) ∧
    (arg s 0 ≠ 0 → arg s 2 ≠ 0 → arg s 5 ≠ 0 → argNat s 3 ≠ 0 → argNat s 6 ≠ 0 → argNat s 4 ≠ 0 →
      RangeOk s ⟨argNat s 0, argNat s 1⟩ → RangeOk s ⟨argNat s 2, argNat s 3⟩ → RangeOk s ⟨argNat s 5, argNat s 6⟩ →
      exec .kdf s = .next { s with
        mem := writeBytes s.mem (argNat s 5)
          (kdfFn (memRead s (argNat s 0) (argNat s 1)) (memRead s (argNat s 2) (argNat s 3)) (argNat s 4) (argNat s 6))
        scratch := Scratch.zero, status := 0, result := 0 })

/-- 45_kdf.md R287: the derived key has `olen` bytes, and a shorter one is a prefix of a longer one. -/
def Obligations.KdfOutputsArePrefixes : Prop :=
  ∀ (pw salt : Bytes) (rounds o1 o2 : Nat), o1 ≤ o2 →
    (kdfFn pw salt rounds o2).length = o2 ∧ (kdfFn pw salt rounds o2).take o1 = kdfFn pw salt rounds o1

/-! ### The whole machine -/

/-- 60_exceptions.md R306: a command that fails changes STATUS and RESULT (to 0) and nothing else. -/
def Obligations.FailureChangesOnlyStatusAndResult : Prop :=
  ∀ (i : Instr) (s t : State), exec i s = .next t → t.status ≠ 0 → t = { s with status := t.status, result := 0 }

/-- 60_exceptions.md R310: whether a command fails or is refused, and how, is a function of the ARG registers, the lifecycle
conditions and (for the range refusals) the platform's map, never of the content of Mem or of a schedule. -/
def Obligations.OutcomeDoesNotDependOnMem : Prop :=
  ∀ (i : Instr) (s s' : State), s'.args = s.args → s'.fei.keyed = s.fei.keyed → s'.spn.Nr = s.spn.Nr →
    s'.spn.encOnly = s.spn.encOnly → s'.hash.active = s.hash.active → s'.regBase = s.regBase →
    (∀ t, exec i s = .next t → ∃ t', exec i s' = .next t' ∧ t'.status = t.status ∧ t'.result = t.result) ∧
    (∀ r, exec i s = .refused r → exec i s' = .refused r)

/-- 60_exceptions.md R321, R303, 10_state.md R44: the codes each command can write, and RESULT: the round count after a
successful set-key command, 0 otherwise. -/
def Obligations.CodesAndResultPerCommand : Prop :=
  ∀ (i : Instr) (s t : State), exec i s = .next t →
    t.status ∈ codesOf i ∧
      (t.status = 0 → (i = .spnSetkey ∨ i = .spnSetkeyEnc) →
        argNat s 1 ∈ [128, 192, 256] ∧ t.result = BitVec.ofNat 32 (argNat s 1 / 32 + 6)) ∧
      ((t.status ≠ 0 ∨ (i ≠ .spnSetkey ∧ i ≠ .spnSetkeyEnc)) → t.result = 0)

/-- 60_exceptions.md R305, 20_memory.md R63: an address operand that is NULL fails with NULL_PTR whatever the other operands are,
in every state where the lifecycle allows the command. -/
def Obligations.NullOperandFailsFirst : Prop :=
  ∀ (i : Instr) (s : State) (k : Fin 7), lifecycleAllows i s → (operandKinds i)[k.val]? = some .addr → arg s k = 0 →
    exec i s = .next { s with status := 3, result := 0 }

/-- 60_exceptions.md R312: a command is refused only in the situations the rule lists, and no command faults. -/
def Obligations.RefusedOnlyWhereTheSpecRefuses : Prop :=
  ∀ (i : Instr) (s : State),
    (∀ r, exec i s = .refused r →
      (r = .feistelNotKeyed ∧ i ∈ bulkCommands ∧ s.fei.keyed = false) ∨
      (r = .spnNoSchedule ∧ (i = .spnEnc ∨ i = .spnDec) ∧ s.spn.Nr = .none) ∨
      (r = .spnEncryptOnly ∧ i = .spnDec ∧ s.spn.encOnly = true) ∨
      (r = .hashNotActive ∧ (i = .hashUpdate ∨ i = .hashFinal) ∧ s.hash.active = false) ∨
      ((r = .rangeWraps ∨ r = .rangeOverRegisters) ∧ lifecycleAllows i s ∧ ∃ g ∈ accessedRanges i s, ¬ RangeOk s g)) ∧
    (∀ f, exec i s ≠ .fault f)

/-- 20_memory.md R74, R76, 60_exceptions.md R312: a command with a range that wraps or overlaps the register block is refused
where its lifecycle allows it and no check fails with a code, and never runs to NO_ERROR. That the failing checks come before the
refusal, and the wrap before the overlap, is the model's reading (log 4). -/
def Obligations.BadRangeNeverRuns : Prop :=
  (∀ (i : Instr) (s : State), lifecycleAllows i s → checksPass i s →
    ((∃ g ∈ accessedRanges i s, 2 ^ 32 < g.addr + g.len) → exec i s = .refused .rangeWraps) ∧
    ((∀ g ∈ accessedRanges i s, g.addr + g.len ≤ 2 ^ 32) → (∃ g ∈ accessedRanges i s, ¬ RangeOk s g) →
      exec i s = .refused .rangeOverRegisters)) ∧
  (∀ (i : Instr) (s t : State), (∃ g ∈ accessedRanges i s, ¬ RangeOk s g) → exec i s = .next t → t.status ≠ 0)

/-- 70_reset_and_hazards.md R343: the three lifecycle machines: what each command does to `keyed`, to (`Nr`, `enc_only`) and to
`active`, in success and in failure. -/
def Obligations.LifecycleMachines : Prop :=
  ∀ (i : Instr) (s t : State), exec i s = .next t →
    (t.fei.keyed = if i = .feiDestroy then false else if i = .feiInit ∧ t.status = 0 then true else s.fei.keyed) ∧
    (t.spn.Nr = .none ↔
      i = .spnDestroy ∨ (¬ ((i = .spnSetkey ∨ i = .spnSetkeyEnc) ∧ t.status = 0) ∧ s.spn.Nr = .none)) ∧
    (t.spn.encOnly = if i = .spnDestroy then false else if i = .spnSetkey ∧ t.status = 0 then false
      else if i = .spnSetkeyEnc ∧ t.status = 0 then true else s.spn.encOnly) ∧
    (t.hash.active = if i = .hashInit then true else if i = .hashFinal ∧ t.status = 0 then false else s.hash.active)

/-- 70_reset_and_hazards.md R341: the destroyed state of each context is its reset state, and no key material survives a reset
event (an access of the model's queue, log 1). -/
def Obligations.DestroyedIsReset : Prop :=
  (∀ s t : State, exec .feiDestroy s = .next t → t.fei = State.reset.fei) ∧
  (∀ s t : State, exec .spnDestroy s = .next t → t.spn = State.reset.spn) ∧
  (∀ s t : State, exec .hashFinal s = .next t → t.status = 0 → t.hash = State.reset.hash) ∧
  (∀ (s : State) (rest : List HostAccess), s.host = .reset :: rest →
    ∃ t, step s = .next t ∧ t.fei = State.reset.fei ∧ t.spn = State.reset.spn ∧ t.hash = State.reset.hash ∧
      t.scratch = State.reset.scratch)

/-- 10_state.md R23, R26, R31, R41, R42, 44_hmac.md R270: each context is written by the commands of its own unit only, and
no command writes CMD or an ARG register. -/
def Obligations.CommandsWriteTheirOwnUnitOnly : Prop :=
  ∀ (i : Instr) (s t : State), exec i s = .next t →
    (i ≠ .feiInit → i ≠ .feiDestroy → t.fei = s.fei) ∧
    (i ≠ .spnSetkey → i ≠ .spnSetkeyEnc → i ≠ .spnDestroy → t.spn = s.spn) ∧
    (i ≠ .hashInit → i ≠ .hashUpdate → i ≠ .hashFinal → t.hash = s.hash) ∧
    (i ≠ .hmac → i ≠ .kdf → t.scratch = s.scratch) ∧
    t.cmd = s.cmd ∧ t.args = s.args ∧ t.host = s.host ∧ t.regBase = s.regBase ∧ t.powerUps = s.powerUps

/-- 20_memory.md R83: the seven commands that store nothing leave every byte of Mem as it was: FEI_INIT, FEI_DESTROY, SPN_SETKEY,
SPN_SETKEY_ENC, SPN_DESTROY, HASH_INIT, HASH_UPDATE, and any command that fails. -/
def Obligations.FrameOfCommandsThatStoreNothing : Prop :=
  ∀ (i : Instr) (s t : State), exec i s = .next t →
    (i ∈ [Instr.feiInit, .feiDestroy, .spnSetkey, .spnSetkeyEnc, .spnDestroy, .hashInit, .hashUpdate] ∨ t.status ≠ 0) →
    ∀ a, readByte t a = readByte s a

/-- 20_memory.md R83: every byte outside the output range of a storing command is as it was: (ARG1, ARG2) for the Feistel bulk
commands, 16 bytes at ARG1 for SPN_ENC and SPN_DEC, 32 bytes at ARG0 for HASH_FINAL and at ARG4 for HMAC, (ARG5, ARG6) for
KDF. -/
def Obligations.FrameOfStoringCommands : Prop :=
  ∀ (i : Instr) (s t : State), exec i s = .next t →
    (i ∈ bulkCommands → ∀ a, a < argNat s 1 ∨ argNat s 1 + argNat s 2 ≤ a → readByte t a = readByte s a) ∧
    ((i = .spnEnc ∨ i = .spnDec) → ∀ a, a < argNat s 1 ∨ argNat s 1 + 16 ≤ a → readByte t a = readByte s a) ∧
    (i = .hashFinal → ∀ a, a < argNat s 0 ∨ argNat s 0 + 32 ≤ a → readByte t a = readByte s a) ∧
    (i = .hmac → ∀ a, a < argNat s 4 ∨ argNat s 4 + 32 ≤ a → readByte t a = readByte s a) ∧
    (i = .kdf → ∀ a, a < argNat s 5 ∨ argNat s 5 + argNat s 6 ≤ a → readByte t a = readByte s a)

/-- 10_state.md R26, R29, R30, R31, R33, R36, R37, R43, R44, 60_exceptions.md R303 (and the canonical form of memory, the
model's own): every step keeps the invariant of the machine. -/
def Obligations.EveryStepKeepsTheCoreInvariant : Prop :=
  ∀ s t : State, CoreInv s → step s = .next t → CoreInv t

/-- The invariant of the machine holds at reset. -/
def Obligations.ResetMeetsTheCoreInvariant : Prop := CoreInv State.reset
end

