-- ==== Sys2Proof/Laws/State.lean ====
section
/-! SUPPORT. One lemma per field per update of State, so that no proof unfolds a record update; and what reading an operand or
a byte sees of an update. -/

namespace Sys2Proof.Machine

@[simp] theorem setFei_fei (c : FeistelCtx) (s : State) : (setFei c s).fei = c := rfl
@[simp] theorem setFei_spn (c : FeistelCtx) (s : State) : (setFei c s).spn = s.spn := rfl
@[simp] theorem setFei_hash (c : FeistelCtx) (s : State) : (setFei c s).hash = s.hash := rfl
@[simp] theorem setFei_scratch (c : FeistelCtx) (s : State) : (setFei c s).scratch = s.scratch := rfl
@[simp] theorem setFei_cmd (c : FeistelCtx) (s : State) : (setFei c s).cmd = s.cmd := rfl
@[simp] theorem setFei_args (c : FeistelCtx) (s : State) : (setFei c s).args = s.args := rfl
@[simp] theorem setFei_status (c : FeistelCtx) (s : State) : (setFei c s).status = s.status := rfl
@[simp] theorem setFei_result (c : FeistelCtx) (s : State) : (setFei c s).result = s.result := rfl
@[simp] theorem setFei_mem (c : FeistelCtx) (s : State) : (setFei c s).mem = s.mem := rfl
@[simp] theorem setFei_host (c : FeistelCtx) (s : State) : (setFei c s).host = s.host := rfl
@[simp] theorem setFei_regBase (c : FeistelCtx) (s : State) : (setFei c s).regBase = s.regBase := rfl
@[simp] theorem setFei_powerUps (c : FeistelCtx) (s : State) : (setFei c s).powerUps = s.powerUps := rfl

@[simp] theorem setSpn_fei (c : SpnCtx) (s : State) : (setSpn c s).fei = s.fei := rfl
@[simp] theorem setSpn_spn (c : SpnCtx) (s : State) : (setSpn c s).spn = c := rfl
@[simp] theorem setSpn_hash (c : SpnCtx) (s : State) : (setSpn c s).hash = s.hash := rfl
@[simp] theorem setSpn_scratch (c : SpnCtx) (s : State) : (setSpn c s).scratch = s.scratch := rfl
@[simp] theorem setSpn_cmd (c : SpnCtx) (s : State) : (setSpn c s).cmd = s.cmd := rfl
@[simp] theorem setSpn_args (c : SpnCtx) (s : State) : (setSpn c s).args = s.args := rfl
@[simp] theorem setSpn_status (c : SpnCtx) (s : State) : (setSpn c s).status = s.status := rfl
@[simp] theorem setSpn_result (c : SpnCtx) (s : State) : (setSpn c s).result = s.result := rfl
@[simp] theorem setSpn_mem (c : SpnCtx) (s : State) : (setSpn c s).mem = s.mem := rfl
@[simp] theorem setSpn_host (c : SpnCtx) (s : State) : (setSpn c s).host = s.host := rfl
@[simp] theorem setSpn_regBase (c : SpnCtx) (s : State) : (setSpn c s).regBase = s.regBase := rfl
@[simp] theorem setSpn_powerUps (c : SpnCtx) (s : State) : (setSpn c s).powerUps = s.powerUps := rfl

@[simp] theorem setHash_fei (c : HashUnit) (s : State) : (setHash c s).fei = s.fei := rfl
@[simp] theorem setHash_spn (c : HashUnit) (s : State) : (setHash c s).spn = s.spn := rfl
@[simp] theorem setHash_hash (c : HashUnit) (s : State) : (setHash c s).hash = c := rfl
@[simp] theorem setHash_scratch (c : HashUnit) (s : State) : (setHash c s).scratch = s.scratch := rfl
@[simp] theorem setHash_cmd (c : HashUnit) (s : State) : (setHash c s).cmd = s.cmd := rfl
@[simp] theorem setHash_args (c : HashUnit) (s : State) : (setHash c s).args = s.args := rfl
@[simp] theorem setHash_status (c : HashUnit) (s : State) : (setHash c s).status = s.status := rfl
@[simp] theorem setHash_result (c : HashUnit) (s : State) : (setHash c s).result = s.result := rfl
@[simp] theorem setHash_mem (c : HashUnit) (s : State) : (setHash c s).mem = s.mem := rfl
@[simp] theorem setHash_host (c : HashUnit) (s : State) : (setHash c s).host = s.host := rfl
@[simp] theorem setHash_regBase (c : HashUnit) (s : State) : (setHash c s).regBase = s.regBase := rfl
@[simp] theorem setHash_powerUps (c : HashUnit) (s : State) : (setHash c s).powerUps = s.powerUps := rfl

@[simp] theorem setScratch_fei (c : Scratch) (s : State) : (setScratch c s).fei = s.fei := rfl
@[simp] theorem setScratch_spn (c : Scratch) (s : State) : (setScratch c s).spn = s.spn := rfl
@[simp] theorem setScratch_hash (c : Scratch) (s : State) : (setScratch c s).hash = s.hash := rfl
@[simp] theorem setScratch_scratch (c : Scratch) (s : State) : (setScratch c s).scratch = c := rfl
@[simp] theorem setScratch_cmd (c : Scratch) (s : State) : (setScratch c s).cmd = s.cmd := rfl
@[simp] theorem setScratch_args (c : Scratch) (s : State) : (setScratch c s).args = s.args := rfl
@[simp] theorem setScratch_status (c : Scratch) (s : State) : (setScratch c s).status = s.status := rfl
@[simp] theorem setScratch_result (c : Scratch) (s : State) : (setScratch c s).result = s.result := rfl
@[simp] theorem setScratch_mem (c : Scratch) (s : State) : (setScratch c s).mem = s.mem := rfl
@[simp] theorem setScratch_host (c : Scratch) (s : State) : (setScratch c s).host = s.host := rfl
@[simp] theorem setScratch_regBase (c : Scratch) (s : State) : (setScratch c s).regBase = s.regBase := rfl
@[simp] theorem setScratch_powerUps (c : Scratch) (s : State) : (setScratch c s).powerUps = s.powerUps := rfl

@[simp] theorem setMem_fei (m : Memory) (s : State) : (setMem m s).fei = s.fei := rfl
@[simp] theorem setMem_spn (m : Memory) (s : State) : (setMem m s).spn = s.spn := rfl
@[simp] theorem setMem_hash (m : Memory) (s : State) : (setMem m s).hash = s.hash := rfl
@[simp] theorem setMem_scratch (m : Memory) (s : State) : (setMem m s).scratch = s.scratch := rfl
@[simp] theorem setMem_cmd (m : Memory) (s : State) : (setMem m s).cmd = s.cmd := rfl
@[simp] theorem setMem_args (m : Memory) (s : State) : (setMem m s).args = s.args := rfl
@[simp] theorem setMem_status (m : Memory) (s : State) : (setMem m s).status = s.status := rfl
@[simp] theorem setMem_result (m : Memory) (s : State) : (setMem m s).result = s.result := rfl
@[simp] theorem setMem_mem (m : Memory) (s : State) : (setMem m s).mem = m := rfl
@[simp] theorem setMem_host (m : Memory) (s : State) : (setMem m s).host = s.host := rfl
@[simp] theorem setMem_regBase (m : Memory) (s : State) : (setMem m s).regBase = s.regBase := rfl
@[simp] theorem setMem_powerUps (m : Memory) (s : State) : (setMem m s).powerUps = s.powerUps := rfl

@[simp] theorem setHost_fei (h : List HostAccess) (s : State) : (setHost h s).fei = s.fei := rfl
@[simp] theorem setHost_spn (h : List HostAccess) (s : State) : (setHost h s).spn = s.spn := rfl
@[simp] theorem setHost_hash (h : List HostAccess) (s : State) : (setHost h s).hash = s.hash := rfl
@[simp] theorem setHost_scratch (h : List HostAccess) (s : State) : (setHost h s).scratch = s.scratch := rfl
@[simp] theorem setHost_cmd (h : List HostAccess) (s : State) : (setHost h s).cmd = s.cmd := rfl
@[simp] theorem setHost_args (h : List HostAccess) (s : State) : (setHost h s).args = s.args := rfl
@[simp] theorem setHost_status (h : List HostAccess) (s : State) : (setHost h s).status = s.status := rfl
@[simp] theorem setHost_result (h : List HostAccess) (s : State) : (setHost h s).result = s.result := rfl
@[simp] theorem setHost_mem (h : List HostAccess) (s : State) : (setHost h s).mem = s.mem := rfl
@[simp] theorem setHost_host (h : List HostAccess) (s : State) : (setHost h s).host = h := rfl
@[simp] theorem setHost_regBase (h : List HostAccess) (s : State) : (setHost h s).regBase = s.regBase := rfl
@[simp] theorem setHost_powerUps (h : List HostAccess) (s : State) : (setHost h s).powerUps = s.powerUps := rfl

@[simp] theorem setCmd_fei (v : Word) (s : State) : (setCmd v s).fei = s.fei := rfl
@[simp] theorem setCmd_spn (v : Word) (s : State) : (setCmd v s).spn = s.spn := rfl
@[simp] theorem setCmd_hash (v : Word) (s : State) : (setCmd v s).hash = s.hash := rfl
@[simp] theorem setCmd_scratch (v : Word) (s : State) : (setCmd v s).scratch = s.scratch := rfl
@[simp] theorem setCmd_cmd (v : Word) (s : State) : (setCmd v s).cmd = v := rfl
@[simp] theorem setCmd_args (v : Word) (s : State) : (setCmd v s).args = s.args := rfl
@[simp] theorem setCmd_status (v : Word) (s : State) : (setCmd v s).status = s.status := rfl
@[simp] theorem setCmd_result (v : Word) (s : State) : (setCmd v s).result = s.result := rfl
@[simp] theorem setCmd_mem (v : Word) (s : State) : (setCmd v s).mem = s.mem := rfl
@[simp] theorem setCmd_host (v : Word) (s : State) : (setCmd v s).host = s.host := rfl
@[simp] theorem setCmd_regBase (v : Word) (s : State) : (setCmd v s).regBase = s.regBase := rfl
@[simp] theorem setCmd_powerUps (v : Word) (s : State) : (setCmd v s).powerUps = s.powerUps := rfl

@[simp] theorem setArg_fei (n : Nat) (v : Word) (s : State) : (setArg n v s).fei = s.fei := rfl
@[simp] theorem setArg_spn (n : Nat) (v : Word) (s : State) : (setArg n v s).spn = s.spn := rfl
@[simp] theorem setArg_hash (n : Nat) (v : Word) (s : State) : (setArg n v s).hash = s.hash := rfl
@[simp] theorem setArg_scratch (n : Nat) (v : Word) (s : State) : (setArg n v s).scratch = s.scratch := rfl
@[simp] theorem setArg_cmd (n : Nat) (v : Word) (s : State) : (setArg n v s).cmd = s.cmd := rfl
@[simp] theorem setArg_args (n : Nat) (v : Word) (s : State) : (setArg n v s).args = s.args.setIfInBounds n v := rfl
@[simp] theorem setArg_status (n : Nat) (v : Word) (s : State) : (setArg n v s).status = s.status := rfl
@[simp] theorem setArg_result (n : Nat) (v : Word) (s : State) : (setArg n v s).result = s.result := rfl
@[simp] theorem setArg_mem (n : Nat) (v : Word) (s : State) : (setArg n v s).mem = s.mem := rfl
@[simp] theorem setArg_host (n : Nat) (v : Word) (s : State) : (setArg n v s).host = s.host := rfl
@[simp] theorem setArg_regBase (n : Nat) (v : Word) (s : State) : (setArg n v s).regBase = s.regBase := rfl
@[simp] theorem setArg_powerUps (n : Nat) (v : Word) (s : State) : (setArg n v s).powerUps = s.powerUps := rfl

@[simp] theorem setEnd_fei (c r : Word) (s : State) : (setEnd c r s).fei = s.fei := rfl
@[simp] theorem setEnd_spn (c r : Word) (s : State) : (setEnd c r s).spn = s.spn := rfl
@[simp] theorem setEnd_hash (c r : Word) (s : State) : (setEnd c r s).hash = s.hash := rfl
@[simp] theorem setEnd_scratch (c r : Word) (s : State) : (setEnd c r s).scratch = s.scratch := rfl
@[simp] theorem setEnd_cmd (c r : Word) (s : State) : (setEnd c r s).cmd = s.cmd := rfl
@[simp] theorem setEnd_args (c r : Word) (s : State) : (setEnd c r s).args = s.args := rfl
@[simp] theorem setEnd_status (c r : Word) (s : State) : (setEnd c r s).status = c := rfl
@[simp] theorem setEnd_result (c r : Word) (s : State) : (setEnd c r s).result = r := rfl
@[simp] theorem setEnd_mem (c r : Word) (s : State) : (setEnd c r s).mem = s.mem := rfl
@[simp] theorem setEnd_host (c r : Word) (s : State) : (setEnd c r s).host = s.host := rfl
@[simp] theorem setEnd_regBase (c r : Word) (s : State) : (setEnd c r s).regBase = s.regBase := rfl
@[simp] theorem setEnd_powerUps (c r : Word) (s : State) : (setEnd c r s).powerUps = s.powerUps := rfl

@[simp] theorem memWrite_fei (a : Nat) (B : Bytes) (s : State) : (memWrite a B s).fei = s.fei := rfl
@[simp] theorem memWrite_spn (a : Nat) (B : Bytes) (s : State) : (memWrite a B s).spn = s.spn := rfl
@[simp] theorem memWrite_hash (a : Nat) (B : Bytes) (s : State) : (memWrite a B s).hash = s.hash := rfl
@[simp] theorem memWrite_scratch (a : Nat) (B : Bytes) (s : State) : (memWrite a B s).scratch = s.scratch := rfl
@[simp] theorem memWrite_cmd (a : Nat) (B : Bytes) (s : State) : (memWrite a B s).cmd = s.cmd := rfl
@[simp] theorem memWrite_args (a : Nat) (B : Bytes) (s : State) : (memWrite a B s).args = s.args := rfl
@[simp] theorem memWrite_status (a : Nat) (B : Bytes) (s : State) : (memWrite a B s).status = s.status := rfl
@[simp] theorem memWrite_result (a : Nat) (B : Bytes) (s : State) : (memWrite a B s).result = s.result := rfl
@[simp] theorem memWrite_mem (a : Nat) (B : Bytes) (s : State) : (memWrite a B s).mem = writeBytes s.mem a B := rfl
@[simp] theorem memWrite_host (a : Nat) (B : Bytes) (s : State) : (memWrite a B s).host = s.host := rfl
@[simp] theorem memWrite_regBase (a : Nat) (B : Bytes) (s : State) : (memWrite a B s).regBase = s.regBase := rfl
@[simp] theorem memWrite_powerUps (a : Nat) (B : Bytes) (s : State) : (memWrite a B s).powerUps = s.powerUps := rfl

@[simp] theorem resetCore_fei (s : State) : (resetCore s).fei = FeistelCtx.zero := rfl
@[simp] theorem resetCore_spn (s : State) : (resetCore s).spn = SpnCtx.zero := rfl
@[simp] theorem resetCore_hash (s : State) : (resetCore s).hash = HashUnit.zero := rfl
@[simp] theorem resetCore_scratch (s : State) : (resetCore s).scratch = Scratch.zero := rfl
@[simp] theorem resetCore_cmd (s : State) : (resetCore s).cmd = 0 := rfl
@[simp] theorem resetCore_args (s : State) : (resetCore s).args = Vector.replicate 7 0 := rfl
@[simp] theorem resetCore_status (s : State) : (resetCore s).status = 0 := rfl
@[simp] theorem resetCore_result (s : State) : (resetCore s).result = 0 := rfl
@[simp] theorem resetCore_mem (s : State) : (resetCore s).mem = s.mem := rfl
@[simp] theorem resetCore_host (s : State) : (resetCore s).host = s.host := rfl
@[simp] theorem resetCore_regBase (s : State) : (resetCore s).regBase = s.regBase := rfl
@[simp] theorem resetCore_powerUps (s : State) : (resetCore s).powerUps = s.powerUps := rfl

@[simp] theorem powerUpCore_fei (s : State) : (powerUpCore s).fei = FeistelCtx.zero := rfl
@[simp] theorem powerUpCore_spn (s : State) : (powerUpCore s).spn = SpnCtx.zero := rfl
@[simp] theorem powerUpCore_hash (s : State) : (powerUpCore s).hash = HashUnit.zero := rfl
@[simp] theorem powerUpCore_scratch (s : State) : (powerUpCore s).scratch = Scratch.zero := rfl
@[simp] theorem powerUpCore_cmd (s : State) : (powerUpCore s).cmd = 0 := rfl
@[simp] theorem powerUpCore_args (s : State) : (powerUpCore s).args = Vector.replicate 7 0 := rfl
@[simp] theorem powerUpCore_status (s : State) : (powerUpCore s).status = 0 := rfl
@[simp] theorem powerUpCore_result (s : State) : (powerUpCore s).result = 0 := rfl
@[simp] theorem powerUpCore_mem (s : State) : (powerUpCore s).mem = [] := rfl
@[simp] theorem powerUpCore_host (s : State) : (powerUpCore s).host = s.host := rfl
@[simp] theorem powerUpCore_regBase (s : State) : (powerUpCore s).regBase = s.regBase := rfl
@[simp] theorem powerUpCore_powerUps (s : State) : (powerUpCore s).powerUps = s.powerUps + 1 := rfl

@[simp] theorem arg_setFei (c : FeistelCtx) (s : State) (i : Fin 7) : arg (setFei c s) i = arg s i := rfl
@[simp] theorem arg_setSpn (c : SpnCtx) (s : State) (i : Fin 7) : arg (setSpn c s) i = arg s i := rfl
@[simp] theorem arg_setHash (c : HashUnit) (s : State) (i : Fin 7) : arg (setHash c s) i = arg s i := rfl
@[simp] theorem arg_setScratch (c : Scratch) (s : State) (i : Fin 7) : arg (setScratch c s) i = arg s i := rfl
@[simp] theorem arg_setMem (m : Memory) (s : State) (i : Fin 7) : arg (setMem m s) i = arg s i := rfl
@[simp] theorem arg_setHost (h : List HostAccess) (s : State) (i : Fin 7) : arg (setHost h s) i = arg s i := rfl
@[simp] theorem arg_setCmd (v : Word) (s : State) (i : Fin 7) : arg (setCmd v s) i = arg s i := rfl
@[simp] theorem arg_setEnd (c r : Word) (s : State) (i : Fin 7) : arg (setEnd c r s) i = arg s i := rfl
@[simp] theorem arg_memWrite (a : Nat) (B : Bytes) (s : State) (i : Fin 7) : arg (memWrite a B s) i = arg s i := rfl
@[simp] theorem argNat_setFei (c : FeistelCtx) (s : State) (i : Fin 7) : argNat (setFei c s) i = argNat s i := rfl
@[simp] theorem argNat_setSpn (c : SpnCtx) (s : State) (i : Fin 7) : argNat (setSpn c s) i = argNat s i := rfl
@[simp] theorem argNat_setHash (c : HashUnit) (s : State) (i : Fin 7) : argNat (setHash c s) i = argNat s i := rfl
@[simp] theorem argNat_setScratch (c : Scratch) (s : State) (i : Fin 7) : argNat (setScratch c s) i = argNat s i := rfl
@[simp] theorem argNat_setMem (m : Memory) (s : State) (i : Fin 7) : argNat (setMem m s) i = argNat s i := rfl
@[simp] theorem argNat_setHost (h : List HostAccess) (s : State) (i : Fin 7) : argNat (setHost h s) i = argNat s i := rfl
@[simp] theorem argNat_setCmd (v : Word) (s : State) (i : Fin 7) : argNat (setCmd v s) i = argNat s i := rfl
@[simp] theorem argNat_setEnd (c r : Word) (s : State) (i : Fin 7) : argNat (setEnd c r s) i = argNat s i := rfl
@[simp] theorem argNat_memWrite (a : Nat) (B : Bytes) (s : State) (i : Fin 7) : argNat (memWrite a B s) i = argNat s i := rfl
@[simp] theorem readByte_setFei (c : FeistelCtx) (s : State) (x : Nat) : readByte (setFei c s) x = readByte s x := rfl
@[simp] theorem readByte_setSpn (c : SpnCtx) (s : State) (x : Nat) : readByte (setSpn c s) x = readByte s x := rfl
@[simp] theorem readByte_setHash (c : HashUnit) (s : State) (x : Nat) : readByte (setHash c s) x = readByte s x := rfl
@[simp] theorem readByte_setScratch (c : Scratch) (s : State) (x : Nat) : readByte (setScratch c s) x = readByte s x := rfl
@[simp] theorem readByte_setHost (h : List HostAccess) (s : State) (x : Nat) : readByte (setHost h s) x = readByte s x := rfl
@[simp] theorem readByte_setCmd (v : Word) (s : State) (x : Nat) : readByte (setCmd v s) x = readByte s x := rfl
@[simp] theorem readByte_setArg (n : Nat) (v : Word) (s : State) (x : Nat) : readByte (setArg n v s) x = readByte s x := rfl
@[simp] theorem readByte_setEnd (c r : Word) (s : State) (x : Nat) : readByte (setEnd c r s) x = readByte s x := rfl
@[simp] theorem memRead_setFei (c : FeistelCtx) (s : State) (x k : Nat) : memRead (setFei c s) x k = memRead s x k := rfl
@[simp] theorem memRead_setSpn (c : SpnCtx) (s : State) (x k : Nat) : memRead (setSpn c s) x k = memRead s x k := rfl
@[simp] theorem memRead_setHash (c : HashUnit) (s : State) (x k : Nat) : memRead (setHash c s) x k = memRead s x k := rfl
@[simp] theorem memRead_setScratch (c : Scratch) (s : State) (x k : Nat) : memRead (setScratch c s) x k = memRead s x k := rfl
@[simp] theorem memRead_setHost (h : List HostAccess) (s : State) (x k : Nat) : memRead (setHost h s) x k = memRead s x k := rfl
@[simp] theorem memRead_setCmd (v : Word) (s : State) (x k : Nat) : memRead (setCmd v s) x k = memRead s x k := rfl
@[simp] theorem memRead_setArg (n : Nat) (v : Word) (s : State) (x k : Nat) : memRead (setArg n v s) x k = memRead s x k := rfl
@[simp] theorem memRead_setEnd (c r : Word) (s : State) (x k : Nat) : memRead (setEnd c r s) x k = memRead s x k := rfl

/-- Two states with the same bytes listed and the same power count read the same byte everywhere. -/
theorem readByte_congr (s t : State) (x : Nat) (hm : t.mem = s.mem) (hp : t.powerUps = s.powerUps) :
    readByte t x = readByte s x := by
  simp [readByte, hm, hp]

end Sys2Proof.Machine
end

