-- ==== Sys2Proof/Laws/Memory.lean ====
section
/-! SUPPORT. Buffer memory: a read after a write, what a write leaves alone, and that every memory operation keeps the
canonical form (spec/20_memory.md R64, R65). -/

namespace Sys2Proof.Machine

theorem lookupByte_writeByte_same (m : Memory) (a : Nat) (v : Byte) : lookupByte (writeByte m a v) a = some v := by
  induction m with
  | nil => simp [writeByte, lookupByte]
  | cons c rest ih =>
    obtain ⟨k, w⟩ := c
    unfold writeByte
    split
    · simp [lookupByte]
    · split
      · simp [lookupByte]
      · rw [lookupByte, if_neg (by omega), ih]

theorem lookupByte_writeByte_other (m : Memory) (a b : Nat) (v : Byte) (h : b ≠ a) :
    lookupByte (writeByte m a v) b = lookupByte m b := by
  induction m with
  | nil => simp [writeByte, lookupByte, Ne.symm h]
  | cons c rest ih =>
    obtain ⟨k, w⟩ := c
    unfold writeByte
    split
    · rw [lookupByte, if_neg (Ne.symm h)]
    · split
      · rename_i hk
        subst hk
        simp [lookupByte, Ne.symm h]
      · rw [lookupByte, lookupByte, ih]

/-- A write of a string leaves every byte outside it alone. -/
theorem lookupByte_writeBytes_outside (B : Bytes) (m : Memory) (a b : Nat) (h : b < a ∨ a + B.length ≤ b) :
    lookupByte (writeBytes m a B) b = lookupByte m b := by
  induction B generalizing m a with
  | nil => rfl
  | cons v rest ih =>
    simp only [List.length_cons] at h
    rw [writeBytes, ih _ _ (by omega), lookupByte_writeByte_other _ _ _ _ (by omega)]

/-- A write of a string puts byte `i` of it at address `a + i`. -/
theorem lookupByte_writeBytes_inside (B : Bytes) (m : Memory) (a i : Nat) (h : i < B.length) :
    lookupByte (writeBytes m a B) (a + i) = some B[i] := by
  induction B generalizing m a i with
  | nil => simp at h
  | cons v rest ih =>
    rw [writeBytes]
    cases i with
    | zero =>
      rw [lookupByte_writeBytes_outside _ _ _ _ (by omega)]
      simpa using lookupByte_writeByte_same m a v
    | succ i =>
      have := ih (writeByte m a v) (a + 1) i (by simpa using h)
      simpa [Nat.add_assoc, Nat.add_comm 1 i] using this

theorem readByte_memWrite_outside (s : State) (a b : Nat) (B : Bytes) (h : b < a ∨ a + B.length ≤ b) :
    readByte (memWrite a B s) b = readByte s b := by
  simp [readByte, lookupByte_writeBytes_outside _ _ _ _ h]

theorem readByte_memWrite_inside (s : State) (a i : Nat) (B : Bytes) (h : i < B.length) :
    readByte (memWrite a B s) (a + i) = B[i] := by
  simp [readByte, lookupByte_writeBytes_inside _ _ _ _ h]

@[simp] theorem memRead_length (s : State) (a n : Nat) : (memRead s a n).length = n := by
  simp [memRead]

@[simp] theorem memRead_getElem (s : State) (a n i : Nat) (h : i < (memRead s a n).length) :
    (memRead s a n)[i] = readByte s (a + i) := by
  simp [memRead]

/-- What was written is read back. -/
theorem memRead_memWrite_same (s : State) (a : Nat) (B : Bytes) : memRead (memWrite a B s) a B.length = B := by
  apply List.ext_getElem (by simp)
  intro i h _
  rw [memRead_getElem, readByte_memWrite_inside _ _ _ _ (by simpa using h)]

/-- A read of a range the write does not touch. -/
theorem memRead_memWrite_disjoint (s : State) (a b n : Nat) (B : Bytes) (h : b + n ≤ a ∨ a + B.length ≤ b) :
    memRead (memWrite a B s) b n = memRead s b n := by
  apply List.ext_getElem (by simp)
  intro i hi _
  simp only [memRead_length] at hi
  rw [memRead_getElem, memRead_getElem, readByte_memWrite_outside _ _ _ _ (by omega)]

/-- Two adjacent ranges read as one. -/
theorem memRead_append (s : State) (a n m : Nat) : memRead s a (n + m) = memRead s a n ++ memRead s (a + n) m := by
  simp [memRead, List.range_add, Nat.add_assoc, Function.comp_def]

/-! ### The canonical form -/

theorem memoryWfFrom_weaken (lo lo' : Nat) (m : Memory) (h : lo' ≤ lo) (hm : memoryWfFrom lo m = true) :
    memoryWfFrom lo' m = true := by
  cases m with
  | nil => rfl
  | cons c rest =>
    simp only [memoryWfFrom, Bool.and_eq_true, decide_eq_true_eq] at hm ⊢
    exact ⟨⟨by omega, hm.1.2⟩, hm.2⟩

theorem writeByte_wfFrom (lo : Nat) (m : Memory) (a : Nat) (v : Byte) (hlo : lo < a) (ha : a < Config.addressEnd)
    (hm : memoryWfFrom lo m = true) : memoryWfFrom lo (writeByte m a v) = true := by
  induction m generalizing lo with
  | nil => simp [writeByte, memoryWfFrom, hlo, ha]
  | cons c rest ih =>
    obtain ⟨k, w⟩ := c
    simp only [memoryWfFrom, Bool.and_eq_true, decide_eq_true_eq] at hm
    unfold writeByte
    split
    · simp [memoryWfFrom, *]
    · split
      · rename_i hk
        subst hk
        simp [memoryWfFrom, hm]
      · simp only [memoryWfFrom, Bool.and_eq_true, decide_eq_true_eq]
        exact ⟨hm.1, ih k (by omega) hm.2⟩

/-- Writing a byte at a buffer address keeps the canonical form. -/
theorem writeByte_wf (m : Memory) (a : Nat) (v : Byte) (h0 : 0 < a) (ha : a < Config.addressEnd) (hm : Memory.wf m = true) :
    Memory.wf (writeByte m a v) = true :=
  writeByte_wfFrom 0 m a v h0 ha hm

/-- Writing a string at buffer addresses keeps the canonical form. -/
theorem writeBytes_wf (B : Bytes) (m : Memory) (a : Nat) (h0 : 0 < a) (ha : a + B.length ≤ Config.addressEnd)
    (hm : Memory.wf m = true) : Memory.wf (writeBytes m a B) = true := by
  induction B generalizing m a with
  | nil => exact hm
  | cons v rest ih =>
    simp only [List.length_cons] at ha
    exact ih _ _ (by omega) (by omega) (writeByte_wf m a v h0 (by omega) hm)

/-- An unlisted memory is canonical, that of reset among them. -/
theorem reset_memory_wf : Memory.wf State.reset.mem = true := rfl

end Sys2Proof.Machine
end

