-- ==== Sys2Proof/Laws/Ops.lean ====
section
/-! SUPPORT. What each shared operation of a command can do, said once: when it answers a next state, and which. -/

namespace Sys2Proof.Machine

theorem endWith_next {res : Word} {s t : State} : endWith res s = .next t ↔ t = setEnd codeNoError res s := by
  simp [endWith, eq_comm]

theorem endOk_next {s t : State} : endOk s = .next t ↔ t = setEnd codeNoError 0 s := endWith_next

theorem endFail_next {code : Word} {s t : State} : endFail code s = .next t ↔ t = setEnd code 0 s := by
  simp [endFail, eq_comm]

/-- A lifecycle rule lets the command through or gives it no step. -/
theorem whenReady_next {ready : Bool} {why : Refusal} {s t : State} {k : State → Out} :
    whenReady ready why s k = .next t ↔ ready = true ∧ k s = .next t := by
  cases ready <;> simp [whenReady]

/-- A check lets the command through or ends it with its code. -/
theorem require_next {ok : Bool} {code : Word} {s t : State} {k : State → Out} :
    require ok code s k = .next t ↔ (ok = false ∧ t = setEnd code 0 s) ∨ (ok = true ∧ k s = .next t) := by
  cases ok <;> simp [require, endFail_next]

/-- The range check lets the command through or gives it no step. -/
theorem withRanges_next {rs : List BufRange} {s t : State} {k : State → Out} :
    withRanges rs s k = .next t ↔
      rs.any rangeWraps = false ∧ rs.any (rangeOverRegisters s.regBase) = false ∧ k s = .next t := by
  unfold withRanges
  split
  · simp_all
  · split <;> simp_all

theorem whenReady_true {why : Refusal} {s : State} {k : State → Out} : whenReady true why s k = k s := rfl

theorem whenReady_false {why : Refusal} {s : State} {k : State → Out} : whenReady false why s k = .refused why := rfl

theorem require_true {code : Word} {s : State} {k : State → Out} : require true code s k = k s := rfl

theorem require_false {code : Word} {s : State} {k : State → Out} : require false code s k = endFail code s := rfl

/-- `nonNull` says that no pointer is 0. -/
theorem nonNull_iff {ptrs : List Word} : nonNull ptrs = true ↔ ∀ p ∈ ptrs, p ≠ 0 := by
  simp [nonNull]

theorem nonNull_false_iff {ptrs : List Word} : nonNull ptrs = false ↔ ∃ p ∈ ptrs, p = 0 := by
  simp [nonNull]

/-- No lifecycle rule, check or range check faults. -/
theorem whenReady_ne_fault {ready : Bool} {why : Refusal} {s : State} {k : State → Out} {r : Fault}
    (h : k s ≠ .fault r) : whenReady ready why s k ≠ .fault r := by
  cases ready <;> simp [whenReady, h]

theorem require_ne_fault {ok : Bool} {code : Word} {s : State} {k : State → Out} {r : Fault}
    (h : k s ≠ .fault r) : require ok code s k ≠ .fault r := by
  cases ok <;> simp [require, endFail, h]

theorem withRanges_ne_fault {rs : List BufRange} {s : State} {k : State → Out} {r : Fault}
    (h : k s ≠ .fault r) : withRanges rs s k ≠ .fault r := by
  unfold withRanges
  split
  · simp
  · split <;> simp [h]

end Sys2Proof.Machine
end

