-- ==== Sys2Proof/Laws/Meanings.lean ====
section
/-! SUPPORT. One inversion per meaning: if a command answers a next state, which of its rule's cases it was, and the state.
Later proofs cite these and unfold no meaning. -/

namespace Sys2Proof.Machine

theorem execFeiInit_next {s t : State} (h : execFeiInit s = .next t) :
    t = setEnd codeNullPtr 0 s ∨ t = setEnd codeInvalidLength 0 s ∨
      (arg s 0 ≠ 0 ∧ 4 ≤ argNat s 1 ∧ argNat s 1 ≤ 56 ∧ (accessedRanges .feiInit s).any rangeWraps = false ∧
        t = setEnd codeNoError 0 (setFei (keyedContext (readRange s (argRange s 0 1))) s)) := by
  unfold execFeiInit at h
  rcases require_next.mp h with ⟨-, h⟩ | ⟨h0, h⟩
  · exact .inl h
  · rcases require_next.mp h with ⟨-, h⟩ | ⟨hl, h⟩
    · exact .inr (.inl h)
    · obtain ⟨hw, -, h⟩ := withRanges_next.mp h
      simp only [Bool.and_eq_true, decide_eq_true_eq] at hl
      exact .inr (.inr ⟨nonNull_iff.mp h0 _ (by simp), hl.1, hl.2, hw, endOk_next.mp h⟩)

/-- The four bulk commands. -/
theorem feistelBulk_next {i : Instr} {ptrs : List Word} {f : Bytes → Bytes} {s t : State}
    (h : feistelBulk i ptrs f s = .next t) :
    s.fei.keyed = true ∧
      (t = setEnd codeNullPtr 0 s ∨ t = setEnd codeInvalidLength 0 s ∨
        ((∀ p ∈ ptrs, p ≠ 0) ∧ argNat s 2 % 8 = 0 ∧ (accessedRanges i s).any rangeWraps = false ∧
          t = setEnd codeNoError 0 (memWrite (argNat s 1) (f (readRange s (argRange s 0 2))) s))) := by
  simp only [feistelBulk, whenReady_next, require_next, withRanges_next, endOk_next] at h
  simp only [beq_iff_eq, nonNull_iff, feistelReady] at h
  tauto

theorem execFeiDestroy_next {s t : State} (h : execFeiDestroy s = .next t) :
    t = setEnd codeNoError 0 (setFei FeistelCtx.zero s) := endOk_next.mp h

/-- The two set-key commands. -/
theorem spnSetKey_next {i : Instr} {encOnly : Bool} {s t : State} (h : spnSetKey i encOnly s = .next t) :
    t = setEnd codeNullPtr 0 s ∨ t = setEnd codeInvalidLength 0 s ∨
      (arg s 0 ≠ 0 ∧ roundsOfKeybits (argNat s 1) ≠ .none ∧ (accessedRanges i s).any rangeWraps = false ∧
        t = setEnd codeNoError (roundsWord (roundsOfKeybits (argNat s 1)))
          (setSpn (expandedContext encOnly (readRange s (argBlock s 0 (argNat s 1 / 8))) (argNat s 1)) s)) := by
  simp only [spnSetKey, require_next, withRanges_next, endWith_next] at h
  simp only [bne_iff_ne, nonNull_iff, List.mem_singleton, forall_eq] at h
  tauto

/-- The two block commands, after their lifecycle rule. -/
theorem spnBlockCommand_next {i : Instr} {f : Bytes → Bytes} {s t : State} (h : spnBlockCommand i f s = .next t) :
    t = setEnd codeNullPtr 0 s ∨
      (arg s 0 ≠ 0 ∧ arg s 1 ≠ 0 ∧ (accessedRanges i s).any rangeWraps = false ∧
        t = setEnd codeNoError 0 (memWrite (argNat s 1) (f (readRange s (argBlock s 0 16))) s)) := by
  simp only [spnBlockCommand, require_next, withRanges_next, endOk_next] at h
  simp only [nonNull_iff, List.mem_cons, List.not_mem_nil, or_false, forall_eq_or_imp, forall_eq] at h
  tauto

theorem execSpnEnc_next {s t : State} (h : execSpnEnc s = .next t) :
    s.spn.Nr ≠ .none ∧ spnBlockCommand .spnEnc (spnEncBlock (roundsNat s.spn.Nr) s.spn.ek) s = .next t := by
  simpa [execSpnEnc, whenReady_next, spnHasKey] using h

theorem execSpnDec_next {s t : State} (h : execSpnDec s = .next t) :
    s.spn.Nr ≠ .none ∧ s.spn.encOnly = false ∧
      spnBlockCommand .spnDec (spnDecBlock (roundsNat s.spn.Nr) s.spn.dk) s = .next t := by
  simpa [execSpnDec, whenReady_next, spnHasKey, spnHasDecryption] using h

theorem execSpnDestroy_next {s t : State} (h : execSpnDestroy s = .next t) :
    t = setEnd codeNoError 0 (setSpn SpnCtx.zero s) := endOk_next.mp h

theorem execHashInit_next {s t : State} (h : execHashInit s = .next t) :
    t = setEnd codeNoError 0 (setHash { ctx := hashInitCtx, active := true } s) := endOk_next.mp h

theorem execHashUpdate_next {s t : State} (h : execHashUpdate s = .next t) :
    s.hash.active = true ∧
      (t = setEnd codeNullPtr 0 s ∨
        (arg s 0 ≠ 0 ∧ (accessedRanges .hashUpdate s).any rangeWraps = false ∧
          t = setEnd codeNoError 0
            (setHash { s.hash with ctx := absorb s.hash.ctx (readRange s (argRange s 0 1)) } s))) := by
  simp only [execHashUpdate, whenReady_next, require_next, withRanges_next, endOk_next] at h
  simp only [nonNull_iff, List.mem_singleton, forall_eq, hashReady] at h
  tauto

theorem execHashFinal_next {s t : State} (h : execHashFinal s = .next t) :
    s.hash.active = true ∧
      (t = setEnd codeNullPtr 0 s ∨
        (arg s 0 ≠ 0 ∧ (accessedRanges .hashFinal s).any rangeWraps = false ∧
          t = setEnd codeNoError 0 (setHash HashUnit.zero (memWrite (argNat s 0) (finalize s.hash.ctx) s)))) := by
  simp only [execHashFinal, whenReady_next, require_next, withRanges_next, endOk_next] at h
  simp only [nonNull_iff, List.mem_singleton, forall_eq, hashReady] at h
  tauto

theorem execHmac_next {s t : State} (h : execHmac s = .next t) :
    t = setEnd codeNullPtr 0 s ∨
      ((∀ p ∈ [arg s 0, arg s 2, arg s 4], p ≠ 0) ∧ (accessedRanges .hmac s).any rangeWraps = false ∧
        t = setEnd codeNoError 0 (setScratch Scratch.zero
          (memWrite (argNat s 4) (hmacFn (readRange s (argRange s 0 1)) (readRange s (argRange s 2 3))) s))) := by
  unfold execHmac at h
  rcases require_next.mp h with ⟨-, h⟩ | ⟨h0, h⟩
  · exact .inl h
  · obtain ⟨hw, -, h⟩ := withRanges_next.mp h
    exact .inr ⟨nonNull_iff.mp h0, hw, endOk_next.mp h⟩

theorem execKdf_next {s t : State} (h : execKdf s = .next t) :
    t = setEnd codeNullPtr 0 s ∨ t = setEnd codeInvalidParameters 0 s ∨
      ((∀ p ∈ [arg s 0, arg s 2, arg s 5], p ≠ 0) ∧ argNat s 3 ≠ 0 ∧ argNat s 6 ≠ 0 ∧ argNat s 4 ≠ 0 ∧
        (accessedRanges .kdf s).any rangeWraps = false ∧
        t = setEnd codeNoError 0 (setScratch Scratch.zero
          (memWrite (argNat s 5)
            (kdfFn (readRange s (argRange s 0 1)) (readRange s (argRange s 2 3)) (argNat s 4) (argNat s 6)) s))) := by
  unfold execKdf at h
  rcases require_next.mp h with ⟨-, h⟩ | ⟨h0, h⟩
  · exact .inl h
  · rcases require_next.mp h with ⟨-, h⟩ | ⟨hp, h⟩
    · exact .inr (.inl h)
    · obtain ⟨hw, -, h⟩ := withRanges_next.mp h
      simp only [Bool.and_eq_true, bne_iff_ne] at hp
      exact .inr (.inr ⟨nonNull_iff.mp h0, hp.1.1, hp.1.2, hp.2, hw, endOk_next.mp h⟩)

end Sys2Proof.Machine
end

