-- ==== Sys2Proof/Laws/PerInstr.lean ====
section
/-! SUPPORT. Statements made per instruction, as syntax: the encoding of each command (spec/30_encoding.md R90, R92, R95). -/

namespace Sys2Proof.Laws.EncodeDecode

/-- The command's CMD word has `rsv` = 0, carries its opcode, and decodes to the command (R90, R92). -/
def Statement (i : Instr) : Prop :=
  rsvField (encode i) = 0 ∧ opcodeField (encode i) = opcodeOf i ∧ decode (encode i) = .ok i

theorem feiInit : Statement .feiInit := ⟨rfl, rfl, rfl⟩
theorem feiEcbEnc : Statement .feiEcbEnc := ⟨rfl, rfl, rfl⟩
theorem feiEcbDec : Statement .feiEcbDec := ⟨rfl, rfl, rfl⟩
theorem feiCbcEnc : Statement .feiCbcEnc := ⟨rfl, rfl, rfl⟩
theorem feiCbcDec : Statement .feiCbcDec := ⟨rfl, rfl, rfl⟩
theorem feiDestroy : Statement .feiDestroy := ⟨rfl, rfl, rfl⟩
theorem spnSetkey : Statement .spnSetkey := ⟨rfl, rfl, rfl⟩
theorem spnSetkeyEnc : Statement .spnSetkeyEnc := ⟨rfl, rfl, rfl⟩
theorem spnEnc : Statement .spnEnc := ⟨rfl, rfl, rfl⟩
theorem spnDec : Statement .spnDec := ⟨rfl, rfl, rfl⟩
theorem spnDestroy : Statement .spnDestroy := ⟨rfl, rfl, rfl⟩
theorem hashInit : Statement .hashInit := ⟨rfl, rfl, rfl⟩
theorem hashUpdate : Statement .hashUpdate := ⟨rfl, rfl, rfl⟩
theorem hashFinal : Statement .hashFinal := ⟨rfl, rfl, rfl⟩
theorem hmac : Statement .hmac := ⟨rfl, rfl, rfl⟩
theorem kdf : Statement .kdf := ⟨rfl, rfl, rfl⟩

end Sys2Proof.Laws.EncodeDecode
end

