-- ==== Sys2Proof/Laws/Units.lean ====
section
/-! SUPPORT. Small lemmas of the unit functions: lengths, words and their bytes, and reading a byte of a cipher state. -/

namespace Sys2Proof.Machine

/-! ### The parts of the invariant -/

/-- A context after FEI_INIT is keyed. -/
@[simp] theorem keyedContext_keyed (key : Bytes) : (keyedContext key).keyed = true := rfl

/-- Each part of the invariant reads its own field only. Cite these where the state is a large term: a bare `exact` makes Lean
compare the contexts. -/
theorem feistelInv_congr {s t : State} (h : t.fei = s.fei) : FeistelInv t ↔ FeistelInv s := by simp only [FeistelInv, h]

theorem spnInv_congr {s t : State} (h : t.spn = s.spn) : SpnInv t ↔ SpnInv s := by simp only [SpnInv, h]

theorem hashInv_congr {s t : State} (h : t.hash = s.hash) : HashInv t ↔ HashInv s := by simp only [HashInv, h]

theorem scratchInv_congr {s t : State} (h : t.scratch = s.scratch) : ScratchInv t ↔ ScratchInv s := by
  simp only [ScratchInv, h]

theorem memInv_congr {s t : State} (h : t.mem = s.mem) : MemInv t ↔ MemInv s := by simp only [MemInv, h]

/-! ### Ranges -/

/-- Ranges that may be accessed let the command through. -/
theorem withRanges_of_ok {rs : List BufRange} {s : State} {k : State → Out} (h : ∀ r ∈ rs, RangeOk s r) :
    withRanges rs s k = k s := by
  have hw : rs.any rangeWraps = false := by
    simp only [List.any_eq_false]
    intro r hr
    have := (h r hr).1
    simp only [rangeWraps, decide_eq_true_eq]
    exact Nat.not_lt.mpr this
  have ho : rs.any (rangeOverRegisters s.regBase) = false := by
    simp only [List.any_eq_false]
    intro r hr
    have := (h r hr).2
    cases hb : s.regBase with
    | none => simp [rangeOverRegisters]
    | some b =>
      simp only [hb, Option.all_some, decide_eq_true_eq] at this
      simp only [rangeOverRegisters, Bool.and_eq_true, decide_eq_true_eq]
      have hn : Config.registerBlockBytes = 40 := rfl
      omega
  simp [withRanges, hw, ho]

/-- A range the check lets through ends at or below the top of the address space. -/
theorem range_end_of_any {rs : List BufRange} (h : rs.any rangeWraps = false) {r : BufRange} (hr : r ∈ rs) :
    r.addr + r.len ≤ Config.addressEnd := by
  have := List.any_eq_false.mp h r hr
  simpa [rangeWraps] using this

/-! ### Registers at addresses -/

/-- Which register an address reaches: one at byte offset `4n` from the base (R40). -/
theorem registerAt_some {base : Option Word} {addr : Word} {n : RegNo} :
    registerAt base addr = some n ↔ ∃ b, base = some b ∧ addr.toNat = b.toNat + 4 * n.val := by
  cases base with
  | none => simp [registerAt]
  | some b =>
    have hn := n.isLt
    simp only [registerAt, Option.some.injEq, exists_eq_left']
    split
    · split
      · simp only [Option.some.injEq, Fin.ext_iff]
        omega
      · simp only [reduceCtorEq, false_iff]
        omega
    · simp only [reduceCtorEq, false_iff]
      omega

/-- An access at the address of a register is the access to it by number. -/
theorem atRegister_some {addr : Word} {k : RegNo → State → Out} {s : State} {n : RegNo}
    (h : registerAt s.regBase addr = some n) : atRegister addr k s = k n s := by
  simp [atRegister, h]

/-- If an access at an address has a next state, it is that of the access to the register there. -/
theorem atRegister_next {addr : Word} {k : RegNo → State → Out} {s t : State} :
    atRegister addr k s = .next t ↔ ∃ n, registerAt s.regBase addr = some n ∧ k n s = .next t := by
  unfold atRegister
  split <;> simp_all

/-! ### Issuing commands -/

/-- The last write of a line, its CMD word, runs the command (30_encoding.md R94). -/
theorem runAccesses_cmd (i : Instr) (s : State) :
    runAccesses [.writeReg 0 (encode i)] s = exec i (setCmd (encode i) s) := by
  have h : decode (encode i) = .ok i := by cases i <;> rfl
  simp only [runAccesses, hostStep, hostWriteReg, hostWriteCmd, h]
  cases exec i (setCmd (encode i) s) <;> rfl

/-- Issuing one command is its accesses, whatever status it ends with (R100). -/
theorem issueAll_singleton (c : Command) (s : State) : issueAll [c] s = runAccesses (accessesOf c) s := by
  simp only [issueAll]
  cases runAccesses (accessesOf c) s <;> simp

/-! ### Words and byte strings -/

@[simp] theorem bytes32_length (w : Word) : (bytes32 w).length = 4 := rfl
@[simp] theorem bytes64_length (v : BitVec 64) : (bytes64 v).length = 8 := rfl
@[simp] theorem zeroBytes_length (n : Nat) : (zeroBytes n).length = n := by simp [zeroBytes]
@[simp] theorem xorb_length (A B : Bytes) : (xorb A B).length = min A.length B.length := by simp [xorb]

/-- The four bytes of a word make the word (R13). -/
theorem word4_wordByte (w : Word) : word4 (wordByte w 0) (wordByte w 1) (wordByte w 2) (wordByte w 3) = w := by
  apply BitVec.eq_of_getLsbD_eq
  intro i hi
  simp only [word4, wordByte, BitVec.getLsbD_or, BitVec.getLsbD_shiftLeft, BitVec.getLsbD_setWidth,
    BitVec.getLsbD_extractLsb', hi, decide_true, Bool.true_and]
  interval_cases i <;> simp

/-- Byte `r` of a word made of four bytes (R13). -/
theorem wordByte_word4 (a b c d : Byte) (r : Nat) (h : r < 4) :
    wordByte (word4 a b c d) r = [a, b, c, d].getD r 0 := by
  apply BitVec.eq_of_getLsbD_eq
  intro i hi
  interval_cases r <;> interval_cases i <;> simp [word4, wordByte]

theorem wordByte_xor (v w : Word) (r : Nat) : wordByte (v ^^^ w) r = wordByte v r ^^^ wordByte w r := by
  apply BitVec.eq_of_getLsbD_eq
  intro i hi
  simp only [wordByte, BitVec.getLsbD_extractLsb', BitVec.getLsbD_xor]
  cases decide (i < 8) <;> rfl

/-- A word stored big-endian loads as itself (20_memory.md R66). -/
@[simp] theorem be32_bytes32 (w : Word) (X : Bytes) : be32 (bytes32 w ++ X) 0 = w := word4_wordByte w

@[simp] theorem be32_bytes32_append (v w : Word) : be32 (bytes32 v ++ bytes32 w) 4 = w := word4_wordByte w

/-! ### Lengths of the unit functions -/

@[simp] theorem feistelEncBlk_length (c : FeistelCtx) (B : Bytes) : (feistelEncBlk c B).length = 8 := rfl
@[simp] theorem feistelDecBlk_length (c : FeistelCtx) (B : Bytes) : (feistelDecBlk c B).length = 8 := rfl

theorem ecbBlocks_length (f : Bytes → Bytes) (hf : ∀ B, (f B).length = 8) (m : Nat) (X : Bytes) :
    (ecbBlocks f m X).length = 8 * m := by
  induction m generalizing X with
  | zero => rfl
  | succ m ih => simp [ecbBlocks, ih, hf, Nat.mul_succ, Nat.add_comm]

theorem cbcEncBlocks_length (f : Bytes → Bytes) (hf : ∀ B, (f B).length = 8) (m : Nat) (V X : Bytes) :
    (cbcEncBlocks f m V X).length = 8 * m := by
  induction m generalizing V X with
  | zero => rfl
  | succ m ih => simp [cbcEncBlocks, ih, hf, Nat.mul_succ, Nat.add_comm]

theorem cbcDecBlocks_length (f : Bytes → Bytes) (hf : ∀ B, (f B).length = 8) (m : Nat) (V X : Bytes)
    (hV : V.length = 8) (hX : X.length = 8 * m) : (cbcDecBlocks f m V X).length = 8 * m := by
  induction m generalizing V X with
  | zero => rfl
  | succ m ih =>
    rw [cbcDecBlocks, List.length_append, ih _ _ (by simp; omega) (by simp; omega)]
    simp [hf, hV]
    omega

@[simp] theorem spnEncBlock_length (nr : Nat) (ek : Vector Word 60) (B : Bytes) : (spnEncBlock nr ek B).length = 16 := by
  simp [spnEncBlock]

@[simp] theorem spnDecBlock_length (nr : Nat) (dk : Vector Word 60) (B : Bytes) : (spnDecBlock nr dk B).length = 16 := by
  simp [spnDecBlock]

theorem digestOf_length (H : Vector Word 8) : (digestOf H).length = 32 := by
  simp [digestOf, List.length_flatMap]

/-! ### The cipher state of the SPN unit -/

/-- Reading a byte of a built state (42_spn.md R185). -/
@[simp] theorem cell_blockOf (f : Fin 4 → Fin 4 → Byte) (r c : Fin 4) : cell (blockOf f) r c = f r c := by
  simp only [cell, blockOf, Vector.getElem_ofFn]
  congr 1
  · exact Fin.ext (show (r.val + 4 * c.val) % 4 = r.val by omega)
  · exact Fin.ext (show (r.val + 4 * c.val) / 4 = c.val by omega)

/-- Two states with the same sixteen bytes are the same. -/
theorem block_ext {s t : Block} (h : ∀ r c, cell s r c = cell t r c) : s = t := by
  apply Vector.ext
  intro i hi
  have := h ⟨i % 4, Nat.mod_lt _ (by decide)⟩ ⟨i / 4, by omega⟩
  simpa only [cell, Nat.mod_add_div] using this

end Sys2Proof.Machine
end

