-- ==== Sys2Proof/Tests/Slice0.lean ====
section
/-! SUPPORT. The model's own tests. Every expected value is from spec/95_test_vectors.md or a rule's example, named at each
test; a witness shows that the hypotheses of a statement's clause can hold. -/

set_option Elab.async false

namespace Sys2Proof.Tests
open Sys2Proof.Machine

/-! ### Small states -/

/-- The answer is a next state with this property. -/
abbrev nextWith (o : Out) (p : State → Bool) : Bool :=
  match o with
  | .next t => p t
  | .fault _ => false
  | .refused _ => false

/-- The answer is this refusal. -/
abbrev refusedAs (o : Out) (r : Refusal) : Bool :=
  match o with
  | .next _ => false
  | .fault _ => false
  | .refused q => q == r

/-- A state with these ARG registers, zeros after them. -/
def withArgs (l : List Word) (s : State) : State := { s with args := Vector.ofFn fun i : Fin 7 => l.getD i.val 0 }

/-- A state with these bytes placed in Mem. -/
def withBytes (a : Nat) (B : Bytes) (s : State) : State := memWrite a B s

/-- A context that holds the constant tables themselves as its schedule. -/
def tableKeyed : State := { State.reset with fei := { P := piP, S := piS, keyed := true } }

/-- A context marked keyed, over zero words. -/
def zeroKeyed : State := { State.reset with fei := { FeistelCtx.zero with keyed := true } }

/-- A context with a schedule of 10 rounds of zero words. -/
def spnKeyed : State := { State.reset with spn := { SpnCtx.zero with Nr := .r10 } }

/-- The same, encrypt-only. -/
def spnEncOnly : State := { State.reset with spn := { SpnCtx.zero with Nr := .r10, encOnly := true } }

/-- A hash in progress. -/
def hashing : State := { State.reset with hash := { ctx := hashInitCtx, active := true } }

/-- A register block mapped at 0x4000. -/
def mapped (s : State) : State := { s with regBase := some 0x4000 }

/-- The 16 bytes `00 01 … 0F`. -/
def key16 : Bytes := [0, 1, 2, 3, 4, 5, 6, 7, 8, 9, 10, 11, 12, 13, 14, 15]

/-! ### Well-formedness: an ill-formed line for each way R91 can be missed -/

theorem test_wf_accepts_three_operands : (Command.mk .feiEcbEnc [0x2000, 0x3000, 8]).wf = true := by decide
theorem test_wf_refuses_an_operand_too_few : (Command.mk .feiEcbEnc [0x2000, 0x3000]).wf = false := by decide
theorem test_wf_refuses_an_operand_too_many : (Command.mk .feiDestroy [0]).wf = false := by decide
theorem test_pseudo_lines_are_well_formed :
    (Pseudo.feiEncBlk 1 2).wf = true ∧ (Pseudo.feiDecBlk 1 2).wf = true ∧ (Pseudo.hash 1 2 3).wf = true := by decide

/-! ### Decoding: words written out bit by bit from R90 and R92, bits 31..8 then 7..4 (unit) then 3..0 -/

theorem test_decode_fei_init : decode 0b000000000000000000000000_0001_0000#32 = .ok .feiInit := by decide
theorem test_decode_fei_ecb_enc : decode 0b000000000000000000000000_0001_0001#32 = .ok .feiEcbEnc := by decide
theorem test_decode_fei_ecb_dec : decode 0b000000000000000000000000_0001_0010#32 = .ok .feiEcbDec := by decide
theorem test_decode_fei_cbc_enc : decode 0b000000000000000000000000_0001_0011#32 = .ok .feiCbcEnc := by decide
theorem test_decode_fei_cbc_dec : decode 0b000000000000000000000000_0001_0100#32 = .ok .feiCbcDec := by decide
theorem test_decode_fei_destroy : decode 0b000000000000000000000000_0001_1111#32 = .ok .feiDestroy := by decide
theorem test_decode_spn_setkey : decode 0b000000000000000000000000_0010_0000#32 = .ok .spnSetkey := by decide
theorem test_decode_spn_setkey_enc : decode 0b000000000000000000000000_0010_0001#32 = .ok .spnSetkeyEnc := by decide
theorem test_decode_spn_enc : decode 0b000000000000000000000000_0010_0010#32 = .ok .spnEnc := by decide
theorem test_decode_spn_dec : decode 0b000000000000000000000000_0010_0011#32 = .ok .spnDec := by decide
theorem test_decode_spn_destroy : decode 0b000000000000000000000000_0010_1111#32 = .ok .spnDestroy := by decide
theorem test_decode_hash_init : decode 0b000000000000000000000000_0011_0000#32 = .ok .hashInit := by decide
theorem test_decode_hash_update : decode 0b000000000000000000000000_0011_0001#32 = .ok .hashUpdate := by decide
theorem test_decode_hash_final : decode 0b000000000000000000000000_0011_0010#32 = .ok .hashFinal := by decide
theorem test_decode_hmac : decode 0b000000000000000000000000_0100_0000#32 = .ok .hmac := by decide
theorem test_decode_kdf : decode 0b000000000000000000000000_0101_0000#32 = .ok .kdf := by decide
/-- V41. -/
theorem test_decode_reserved :
    decode 0x00000000 = .error .reservedOpcode ∧ decode 0x00000015 = .error .reservedOpcode ∧
    decode 0x00000060 = .error .reservedOpcode ∧ decode 0x000000FF = .error .reservedOpcode ∧
    decode 0x00000110 = .error .reservedBits ∧ decode 0x80000010 = .error .reservedBits := by decide
/-- V40: the register writes of a KDF line. -/
theorem test_assemble_kdf :
    assemble ⟨.kdf, [0x1000, 8, 0x1100, 4, 1, 0x1800, 32]⟩ =
      [(1, 0x1000), (2, 8), (3, 0x1100), (4, 4), (5, 1), (6, 0x1800), (7, 0x20), (0, 0x50)] := by decide
theorem test_table_word_decodes : decodeTableWord 32 0x2F = some .spnDestroy ∧ decodeTableWord 32 0x60 = none := by decide

/-! ### Tables and functions -/

/-- 41_feistel_constants.md R176 (1): the XOR and the sum of the 1042 words. -/
theorem test_pi_checksums :
    (piPWords ++ piS0Words ++ piS1Words ++ piS2Words ++ piS3Words).foldl (· ^^^ ·) 0 = 0x6FFA520A ∧
    (piPWords ++ piS0Words ++ piS1Words ++ piS2Words ++ piS3Words).foldl (· + ·) 0 = 0x6BBF03AC := by decide +kernel
/-- V6: key packing of the key 01 02 03 04 05, words 0, 1, 2, 17. -/
theorem test_key_packing :
    keyStreamWord [1, 2, 3, 4, 5] 0 = 0x01020304 ∧ keyStreamWord [1, 2, 3, 4, 5] 1 = 0x05010203 ∧
    keyStreamWord [1, 2, 3, 4, 5] 2 = 0x04050102 ∧ keyStreamWord [1, 2, 3, 4, 5] 17 = 0x04050102 := by decide +kernel
/-- V15. -/
theorem test_field_arithmetic :
    xtime 0x57 = 0xAE ∧ xtime 0xAE = 0x47 ∧ xtime 0x80 = 0x1B ∧ gmul 0x57 0x83 = 0xC1 ∧ gmul 0x57 0x13 = 0xFE ∧
    sbox 0x53 = 0xED ∧ isbox 0x63 = 0 ∧ invMixWord 0x8E4DA1BC = 0xDB135345 ∧ te0 0 = 0xC66363A5 := by decide +kernel
/-- V15: MixColumns of the column DB 13 53 45, in every column. -/
theorem test_mix_columns :
    (mixColumns (blockOf fun r _ => [0xDB, 0x13, 0x53, 0x45].getD r.val 0)).toList.take 4 = [0x8E, 0x4D, 0xA1, 0xBC] := by
  decide +kernel
/-- V24: the carry of AddBits. -/
theorem test_add_bits_carry :
    (addBits { hashInitCtx with cntLo := 0xFFFFFE00, cntHi := 7 } 512).cntHi = 8 ∧
    (addBits { hashInitCtx with cntLo := 0xFFFFFE00, cntHi := 0xFFFFFFFF } 512).cntHi = 0 := by decide +kernel

/-! ### Commands -/

/-- V8, V42: the null check comes before the length check. -/
theorem test_fei_init_null : nextWith (exec .feiInit (withArgs [0, 3] State.reset)) (fun t => t.status == 3) = true := by decide +kernel
/-- V8: 57 key bytes. -/
theorem test_fei_init_long : nextWith (exec .feiInit (withArgs [0x1000, 57] State.reset)) (fun t => t.status == 2) = true := by
  decide +kernel
/-- V2: Enc((PI_P, PI_S), 0, 0) = (706D9FCC, 1792D23A), through FEI_ECB_ENC. -/
theorem test_fei_ecb_enc_tables :
    nextWith (exec .feiEcbEnc (withArgs [0x2000, 0x3000, 8] (withBytes 0x2000 (zeroBytes 8) tableKeyed)))
      (fun t => memRead t 0x3000 8 == [0x70, 0x6D, 0x9F, 0xCC, 0x17, 0x92, 0xD2, 0x3A]) = true := by decide +kernel
/-- V33: a ragged length whose range would wrap fails with INVALID_LENGTH. -/
theorem test_fei_ecb_enc_ragged :
    nextWith (exec .feiEcbEnc (withArgs [0x2000, 0x3000, 0xFFFFFFFF] zeroKeyed)) (fun t => t.status == 2 && t.mem == []) =
      true := by decide +kernel
/-- V2 backwards, through FEI_ECB_DEC. -/
theorem test_fei_ecb_dec_tables :
    nextWith (exec .feiEcbDec (withArgs [0x2000, 0x2000, 8]
        (withBytes 0x2000 [0x70, 0x6D, 0x9F, 0xCC, 0x17, 0x92, 0xD2, 0x3A] tableKeyed)))
      (fun t => memRead t 0x2000 8 == [0, 0, 0, 0, 0, 0, 0, 0]) = true := by decide +kernel
/-- V42: not keyed is refused before the null check. -/
theorem test_fei_ecb_dec_refused : refusedAs (exec .feiEcbDec State.reset) .feistelNotKeyed = true := by decide +kernel
/-- V2 with the block equal to the IV, so that the transform sees zeros. -/
theorem test_fei_cbc_enc_tables :
    nextWith (exec .feiCbcEnc (withArgs [0x2000, 0x3000, 8, 0x2000]
        (withBytes 0x2000 [1, 2, 3, 4, 5, 6, 7, 8] tableKeyed)))
      (fun t => memRead t 0x3000 8 == [0x70, 0x6D, 0x9F, 0xCC, 0x17, 0x92, 0xD2, 0x3A]) = true := by decide +kernel
/-- R134: a NULL IV. -/
theorem test_fei_cbc_enc_null_iv :
    nextWith (exec .feiCbcEnc (withArgs [0x2000, 0x3000, 8, 0] zeroKeyed)) (fun t => t.status == 3) = true := by decide +kernel
/-- R133: length 0 succeeds and writes nothing. -/
theorem test_fei_cbc_dec_empty :
    nextWith (exec .feiCbcDec (withArgs [0x2000, 0x3000, 0, 0x1100] zeroKeyed)) (fun t => t.status == 0 && t.mem == []) =
      true := by decide +kernel
/-- R74: an IV range that wraps is refused. -/
theorem test_fei_cbc_dec_wraps :
    refusedAs (exec .feiCbcDec (withArgs [0x2000, 0x3000, 0, 0xFFFFFFFC] zeroKeyed)) .rangeWraps = true := by decide +kernel
/-- R135. -/
theorem test_fei_destroy :
    nextWith (exec .feiDestroy zeroKeyed) (fun t => t.fei.keyed == false && t.status == 0) = true := by decide +kernel
/-- V10: schedule words of the key 00 … 0F, the round count, the zero tail. -/
theorem test_spn_setkey_v10 :
    nextWith (exec .spnSetkey (withArgs [0x1000, 128] (withBytes 0x1000 key16 State.reset)))
      (fun t => t.result == 10 && t.spn.ek[4] == 0xD6AA74FD && t.spn.dk[4] == 0x13AA29BE && t.spn.ek[44] == 0) = true := by
  decide +kernel
/-- V16: 160 bits. -/
theorem test_spn_setkey_160 :
    nextWith (exec .spnSetkey (withArgs [0x1000, 160] spnEncOnly))
      (fun t => t.status == 2 && t.result == 0 && t.spn.encOnly) = true := by decide +kernel
/-- V16: the null check comes first. -/
theorem test_spn_setkey_enc_null :
    nextWith (exec .spnSetkeyEnc (withArgs [0, 64] State.reset)) (fun t => t.status == 3) = true := by decide +kernel
/-- V10: SPN_ENC of 00 11 22 … FF. -/
theorem test_spn_enc_v10 :
    nextWith (exec .spnEnc (withArgs [0x2000, 0x3000] (withBytes 0x2000
        [0x00, 0x11, 0x22, 0x33, 0x44, 0x55, 0x66, 0x77, 0x88, 0x99, 0xAA, 0xBB, 0xCC, 0xDD, 0xEE, 0xFF]
        { State.reset with spn := expandedContext false key16 128 })))
      (fun t => memRead t 0x3000 16 ==
        [0x69, 0xC4, 0xE0, 0xD8, 0x6A, 0x7B, 0x04, 0x30, 0xD8, 0xCD, 0xB7, 0x80, 0x70, 0xB4, 0xC5, 0x5A]) = true := by
  decide +kernel
/-- V16: SPN_ENC after reset is refused. -/
theorem test_spn_enc_refused : refusedAs (exec .spnEnc State.reset) .spnNoSchedule = true := by decide +kernel
/-- V16: SPN_DEC on an encrypt-only context is refused. -/
theorem test_spn_dec_encrypt_only : refusedAs (exec .spnDec (withArgs [1, 1] spnEncOnly)) .spnEncryptOnly = true := by decide +kernel
/-- R76: an output range over the register block is refused. -/
theorem test_spn_dec_over_registers :
    refusedAs (exec .spnDec (withArgs [0x2000, 0x3FF1] (mapped spnKeyed))) .rangeOverRegisters = true := by decide +kernel
/-- R199. -/
theorem test_spn_destroy :
    nextWith (exec .spnDestroy spnEncOnly) (fun t => t.spn.Nr == .none && !t.spn.encOnly) = true := by decide +kernel
/-- R238, example. -/
theorem test_hash_init :
    nextWith (exec .hashInit State.reset) (fun t => t.hash.ctx.H[0] == 0x6A09E667 && t.hash.active) = true := by decide +kernel
/-- R239, example: three bytes wait, nothing is compressed. -/
theorem test_hash_update_abc :
    nextWith (exec .hashUpdate (withArgs [0x1000, 3] (withBytes 0x1000 [0x61, 0x62, 0x63] hashing)))
      (fun t => t.hash.ctx.fill == 3 && pendingBytes t.hash.ctx == [0x61, 0x62, 0x63] && t.hash.ctx.cntLo == 0) = true := by
  decide +kernel
/-- V21: the digest of "abc". -/
theorem test_hash_final_abc :
    nextWith (exec .hashFinal (withArgs [0x3000] { hashing with hash := { ctx := absorb hashInitCtx [0x61, 0x62, 0x63], active := true } }))
      (fun t => memRead t 0x3000 32 ==
        [0xBA, 0x78, 0x16, 0xBF, 0x8F, 0x01, 0xCF, 0xEA, 0x41, 0x41, 0x40, 0xDE, 0x5D, 0xAE, 0x22, 0x23,
         0xB0, 0x03, 0x61, 0xA3, 0x96, 0x17, 0x7A, 0x9C, 0xB4, 0x10, 0xFF, 0x61, 0xF2, 0x00, 0x15, 0xAD]) = true := by
  decide +kernel
/-- V25: HASH_FINAL 0 leaves the hash in progress. -/
theorem test_hash_final_null :
    nextWith (exec .hashFinal hashing) (fun t => t.status == 3 && t.hash.active) = true := by decide +kernel
/-- V29a: the keyed hash of the empty message under the empty key. -/
theorem test_hmac_empty :
    nextWith (exec .hmac (withArgs [0x1000, 0, 0x1000, 0, 0x3000] State.reset))
      (fun t => memRead t 0x3000 32 ==
        [0xB6, 0x13, 0x67, 0x9A, 0x08, 0x14, 0xD9, 0xEC, 0x77, 0x2F, 0x95, 0xD7, 0x78, 0xC3, 0x5F, 0xC5,
         0xFF, 0x16, 0x97, 0xC4, 0x93, 0x71, 0x56, 0x53, 0xC6, 0xC7, 0x12, 0x14, 0x42, 0x92, 0xC5, 0xAD]) = true := by
  decide +kernel
/-- 44_hmac.md: HMAC k, 0, m, 0, 0 fails. -/
theorem test_hmac_null :
    nextWith (exec .hmac (withArgs [1, 0, 1, 0, 0] State.reset)) (fun t => t.status == 3 && t.mem == []) = true := by decide +kernel
/-- V32: rounds = 0. -/
theorem test_kdf_rounds_zero :
    nextWith (exec .kdf (withArgs [0x1000, 8, 0x1100, 4, 0, 0x3000, 32] State.reset))
      (fun t => t.status == 4 && t.mem == []) = true := by decide +kernel
/-- V42: the null check comes before the parameter check. -/
theorem test_kdf_null_first :
    nextWith (exec .kdf (withArgs [0, 8, 0x1100, 0, 1, 0x3000, 32] State.reset)) (fun t => t.status == 3) = true := by decide +kernel

/-! ### The step -/

/-- P5 step 10: CMD = 00000110 gives INVALID_PARAMETERS and reads back. -/
theorem test_step_illegal_word :
    nextWith (step (State.reset.withFetchWord 32 0x110)) (fun t => t.status == 4 && hostRead t 0 == 0x110) = true := by
  decide +kernel
/-- The placed word is what the very next step runs. -/
theorem test_step_runs_the_placed_word :
    nextWith (step (State.reset.withFetchWord 32 0x30)) (fun t => t.hash.active && t.cmd == 0x30 && t.host == []) = true := by
  decide +kernel
/-- 10_state.md R41: a write of ARG6 (register 7). -/
theorem test_step_writes_arg6 :
    nextWith (step { State.reset with host := [.writeReg 7 5] }) (fun t => hostRead t 7 == 5 && hostRead t 6 == 0) = true := by
  decide +kernel
/-- 10_state.md R40: with the block at 0x4000, RESULT is at 0x4024 and the byte after the block is no register. -/
theorem test_register_addresses :
    registerAt (some 0x4000) 0x4024 = some 9 ∧ registerAt (some 0x4000) 0x4028 = none ∧ registerAt (some 0x4000) 0x4002 = none ∧
    registerAt none 0x4000 = none := by decide
/-- 10_state.md R40: a write at REG_BASE is a CMD write, one at REG_BASE + 4 an ARG0 write. -/
theorem test_step_writes_by_address :
    nextWith (step (mapped { State.reset with host := [.writeAt 0x4000 0x30] })) (fun t => t.hash.active && t.cmd == 0x30) =
      true ∧
    nextWith (step (mapped { State.reset with host := [.writeAt 0x4004 7] })) (fun t => arg t 0 == 7) = true := by decide +kernel
/-- 20_memory.md R61: address 0 holds no buffer data (log 5). -/
theorem test_host_store_at_null :
    (match step { State.reset with host := [.store 0 [1]] } with | .fault _ => true | .next _ => false | .refused _ => false) =
      true := by decide +kernel

/-! ### Witnesses: a state and operands for each clause with hypotheses, at a boundary of its range -/

theorem witness_IllegalAndReservedWordsDoNothing :
    (State.withFetchWord State.reset 32 0x0F).host = .writeReg 0 0x0F :: [] ∧
    (0x100 : Word).toNat ≥ 2 ^ 8 ∧ (0x0F : Word).toNat ≤ 0x0F ∧ (0x15 : Word).toNat = 0x15 ∧ (0x1E : Word).toNat = 0x1E ∧
    (0x24 : Word).toNat = 0x24 ∧ (0x33 : Word).toNat = 0x33 ∧ (0x41 : Word).toNat = 0x41 ∧ 0x51 ≤ (0x51 : Word).toNat := by decide
theorem witness_StepRunsTheDecodedCommand :
    (State.withFetchWord State.reset 32 0x10).host = .writeReg 0 0x10 :: [] ∧ decode 0x10 = .ok .feiInit ∧
    State.reset.host = [] := by decide
theorem witness_RegisterAccessesOtherThanCmd :
    (setHost [.readReg 9] State.reset).host = .readReg 9 :: [] ∧
    (setHost [.writeReg 7 1] State.reset).host = .writeReg 7 1 :: [] ∧ 1 ≤ (7 : RegNo).val ∧ (7 : RegNo).val ≤ 7 ∧
    (setHost [.writeReg 8 1] State.reset).host = .writeReg 8 1 :: [] ∧ 8 ≤ (8 : RegNo).val ∧
    (setMem [(1, 1)] State.reset).cmd = State.reset.cmd ∧ (setMem [(1, 1)] State.reset).args = State.reset.args := by decide
/-- The last register of a block that ends at the top of the address space; an address just past a block, and no block. -/
theorem witness_AddressedAccessesReachTheirRegister :
    ({ State.reset with regBase := some 0xFFFFFFD8 } : State).regBase = some 0xFFFFFFD8 ∧
    (0xFFFFFFD8 : Word).toNat + 4 * (9 : RegNo).val < 2 ^ 32 ∧
    (setHost [.readAt 0xFFFFFFFC] State.reset).host = .readAt (BitVec.ofNat 32 ((0xFFFFFFD8 : Word).toNat + 4 * (9 : RegNo).val)) :: [] ∧
    (setHost [.writeAt 0xFFFFFFFC 1] State.reset).host =
      .writeAt (BitVec.ofNat 32 ((0xFFFFFFD8 : Word).toNat + 4 * (9 : RegNo).val)) 1 :: [] ∧
    (∀ n : RegNo, (0x4028 : Word).toNat ≠ (0x4000 : Word).toNat + 4 * n.val) ∧ State.reset.regBase = none := by decide
theorem witness_HostStoreWritesItsBytesOnly :
    (setHost [.store 0xFFFFFFFF [1]] State.reset).host = .store 0xFFFFFFFF [1] :: [] ∧ (0xFFFFFFFF : Word) ≠ 0 ∧
    RangeOk State.reset ⟨0xFFFFFFFF, 1⟩ := by decide
theorem witness_ResetAndPowerUpValues :
    (setHost [.reset] zeroKeyed).host = .reset :: [] ∧ (setHost [.powerCycle] zeroKeyed).host = .powerCycle :: [] := by
  decide +kernel
theorem witness_AssembledLineRunsItsCommand : (Command.mk .kdf [1, 8, 1, 4, 1, 1, 32]).wf = true := by decide
theorem witness_MemReadAndMemWrite : 0 < ([5] : Bytes).length ∧ (0 : Nat) < 1 ∧ 1 + ([5] : Bytes).length ≤ 2 := by decide
theorem witness_FeiInitBuildsTheKeySchedule :
    arg (withArgs [0, 4] State.reset) 0 = 0 ∧ (arg (withArgs [1, 3] State.reset) 0 ≠ 0 ∧ argNat (withArgs [1, 3] State.reset) 1 < 4) ∧
    56 < argNat (withArgs [1, 57] State.reset) 1 ∧
    (arg (withArgs [1, 56] State.reset) 0 ≠ 0 ∧ 4 ≤ argNat (withArgs [1, 56] State.reset) 1 ∧
      argNat (withArgs [1, 56] State.reset) 1 ≤ 56 ∧
      RangeOk (withArgs [1, 56] State.reset) ⟨argNat (withArgs [1, 56] State.reset) 0, argNat (withArgs [1, 56] State.reset) 1⟩) := by
  decide
/-- FeiEcbEncEncryptsEachBlock and FeiEcbDecDecryptsEachBlock. -/
theorem witness_FeiEcb :
    State.reset.fei.keyed = false ∧ (zeroKeyed.fei.keyed = true ∧ arg (withArgs [0, 1, 8] zeroKeyed) 0 = 0) ∧
    argNat (withArgs [1, 1, 7] zeroKeyed) 2 % 8 ≠ 0 ∧
    ((withArgs [1, 0xFFFFFFF8, 8] zeroKeyed).fei.keyed = true ∧ arg (withArgs [1, 0xFFFFFFF8, 8] zeroKeyed) 0 ≠ 0 ∧
      arg (withArgs [1, 0xFFFFFFF8, 8] zeroKeyed) 1 ≠ 0 ∧ argNat (withArgs [1, 0xFFFFFFF8, 8] zeroKeyed) 2 % 8 = 0 ∧
      RangeOk zeroKeyed ⟨1, 8⟩ ∧ RangeOk zeroKeyed ⟨0xFFFFFFF8, 8⟩) := by decide
/-- FeiCbcEncChainsTheBlocks, FeiCbcDecUnchainsTheBlocks and CbcCommandsRoundTrip. -/
theorem witness_FeiCbc :
    State.reset.fei.keyed = false ∧ arg (withArgs [1, 1, 8, 0] zeroKeyed) 3 = 0 ∧
    argNat (withArgs [1, 1, 9, 1] zeroKeyed) 2 % 8 ≠ 0 ∧
    ((withArgs [0x100, 9, 8, 1] zeroKeyed).fei.keyed = true ∧ arg (withArgs [0x100, 9, 8, 1] zeroKeyed) 0 ≠ 0 ∧
      arg (withArgs [0x100, 9, 8, 1] zeroKeyed) 1 ≠ 0 ∧ arg (withArgs [0x100, 9, 8, 1] zeroKeyed) 3 ≠ 0 ∧
      argNat (withArgs [0x100, 9, 8, 1] zeroKeyed) 2 % 8 = 0 ∧ RangeOk zeroKeyed ⟨0x100, 8⟩ ∧ RangeOk zeroKeyed ⟨9, 8⟩ ∧
      RangeOk zeroKeyed ⟨1, 8⟩ ∧
      argNat (withArgs [0x100, 9, 8, 1] zeroKeyed) 3 + 8 ≤ argNat (withArgs [0x100, 9, 8, 1] zeroKeyed) 1 ∧
      (0xFFFFFFF8 : Word) ≠ 0 ∧ RangeOk zeroKeyed ⟨0xFFFFFFF8, 8⟩) := by decide
/-- EcbCommandsRoundTrip, with the output over the input. -/
theorem witness_EcbCommandsRoundTrip :
    (withArgs [1, 1, 16] zeroKeyed).fei.keyed = true ∧ arg (withArgs [1, 1, 16] zeroKeyed) 0 ≠ 0 ∧
    arg (withArgs [1, 1, 16] zeroKeyed) 1 ≠ 0 ∧ argNat (withArgs [1, 1, 16] zeroKeyed) 2 % 8 = 0 ∧
    RangeOk zeroKeyed ⟨1, 16⟩ ∧ (9 : Word) ≠ 0 ∧ RangeOk zeroKeyed ⟨9, 16⟩ := by decide
/-- EcbOutputIsBlockwise, CbcEncOutputIsAChain, CbcDecOutputIsBlockwise, CbcEncryptionSplits: two blocks, the second. -/
theorem witness_two_blocks :
    (∀ B : Bytes, (feistelEncBlk FeistelCtx.zero B).length = 8) ∧ (zeroBytes 8).length = 8 ∧
    (zeroBytes 16).length = 8 * 2 ∧ 1 < 2 ∧ (zeroBytes 16).length = 8 * (1 + 1) ∧ 0 < 1 :=
  ⟨fun _ => rfl, rfl, rfl, by decide, rfl, by decide⟩
/-- SpnSetkeyExpandsBothSchedules and SpnSetkeyEncExpandsOneSchedule, at each legal key size. -/
theorem witness_SpnSetkey :
    arg (withArgs [0, 128] State.reset) 0 = 0 ∧ arg (withArgs [1, 129] State.reset) 0 ≠ 0 ∧
    argNat (withArgs [1, 129] State.reset) 1 ∉ [128, 192, 256] ∧ argNat (withArgs [1, 128] State.reset) 1 ∈ [128, 192, 256] ∧
    argNat (withArgs [1, 192] State.reset) 1 ∈ [128, 192, 256] ∧ argNat (withArgs [1, 256] State.reset) 1 ∈ [128, 192, 256] ∧
    RangeOk State.reset ⟨1, 256 / 8⟩ := by decide
/-- SpnEncEncryptsOneBlock and SpnDecDecryptsOneBlock. -/
theorem witness_SpnBlock :
    State.reset.spn.Nr = .none ∧ (spnEncOnly.spn.Nr ≠ .none ∧ spnEncOnly.spn.encOnly = true) ∧
    (spnKeyed.spn.Nr ≠ .none ∧ spnKeyed.spn.encOnly = false ∧ arg (withArgs [1, 0] spnKeyed) 1 = 0) ∧
    (arg (withArgs [1, 0xFFFFFFF0] spnKeyed) 0 ≠ 0 ∧ arg (withArgs [1, 0xFFFFFFF0] spnKeyed) 1 ≠ 0 ∧
      RangeOk spnKeyed ⟨1, 16⟩ ∧ RangeOk spnKeyed ⟨0xFFFFFFF0, 16⟩) := by decide
theorem witness_SpnDecBlockUndoesEncBlock :
    128 ∈ [128, 192, 256] ∧ key16.length = 128 / 8 ∧ (zeroBytes 16).length = 16 ∧
    expandEnc key16 128 = ((expandEnc key16 128).1, (expandEnc key16 128).2) := by
  exact ⟨by decide, rfl, rfl, rfl⟩
theorem witness_SpnCommandsRoundTrip :
    arg (withArgs [1, 128] State.reset) 0 ≠ 0 ∧ argNat (withArgs [1, 128] State.reset) 1 ∈ [128, 192, 256] ∧
    RangeOk State.reset ⟨1, 16⟩ ∧
    nextWith (exec .spnSetkey (withArgs [1, 128] State.reset)) (fun t => t.status == 0 && t.regBase == none) = true ∧
    (0x1000 : Word) ≠ 0 ∧ RangeOk State.reset ⟨0x1000, 16⟩ := by decide +kernel
theorem witness_HashUpdateAbsorbsItsBytes :
    State.reset.hash.active = false ∧ (hashing.hash.active = true ∧ arg (withArgs [0, 5] hashing) 0 = 0) ∧
    (arg (withArgs [1, 0xFFFFFFFF] hashing) 0 ≠ 0 ∧ RangeOk hashing ⟨1, 0xFFFFFFFF⟩) ∧
    argNat (withArgs [1, 0] hashing) 1 = 0 := by decide
theorem witness_HashFinalWritesTheDigest :
    State.reset.hash.active = false ∧ (hashing.hash.active = true ∧ arg hashing 0 = 0) ∧
    (arg (withArgs [0xFFFFFFE0] hashing) 0 ≠ 0 ∧ RangeOk hashing ⟨0xFFFFFFE0, 32⟩) := by decide
theorem witness_HashUpdatesConcatenate :
    (withArgs [1] hashing).hash.active = true ∧ arg (withArgs [1] hashing) 0 ≠ 0 ∧
    argNat (withArgs [1] hashing) 0 + (64 : Word).toNat < 2 ^ 32 ∧ RangeOk hashing ⟨1, (64 : Word).toNat + (1 : Word).toNat⟩ := by
  decide
theorem witness_HashPseudoCommandWritesHashFn :
    (1 : Word) ≠ 0 ∧ RangeOk State.reset ⟨(1 : Word).toNat, (0 : Word).toNat⟩ ∧ RangeOk State.reset ⟨(1 : Word).toNat, 32⟩ := by decide
theorem witness_PseudoCommandsExpandAndStopAtAFailure :
    zeroKeyed.fei.keyed = true ∧ (0xFFFFFFF8 : Word) ≠ 0 ∧ RangeOk zeroKeyed ⟨(0xFFFFFFF8 : Word).toNat, 8⟩ ∧
    RangeOk zeroKeyed ⟨(1 : Word).toNat, 8⟩ ∧ RangeOk State.reset ⟨(1 : Word).toNat, (0xFFFFFFFF : Word).toNat⟩ := by
  decide +kernel
theorem witness_AddBitsIsA64BitCounter : 512 < 2 ^ 32 := by decide
theorem witness_HmacWritesTheKeyedHash :
    arg (withArgs [1, 0, 1, 0, 0] State.reset) 4 = 0 ∧ arg (withArgs [1, 129, 1, 0, 1] State.reset) 0 ≠ 0 ∧
    arg (withArgs [1, 129, 1, 0, 1] State.reset) 2 ≠ 0 ∧ arg (withArgs [1, 129, 1, 0, 1] State.reset) 4 ≠ 0 ∧
    RangeOk State.reset ⟨1, 129⟩ ∧ RangeOk State.reset ⟨1, 0⟩ ∧ RangeOk State.reset ⟨1, 32⟩ := by decide
theorem witness_LongHmacKeysAreHashed : 64 < (zeroBytes 65).length ∧ (zeroBytes 64).length ≤ 64 := by decide
theorem witness_KdfWritesTheDerivedKey :
    arg (withArgs [0, 8, 1, 4, 1, 1, 32] State.reset) 0 = 0 ∧ argNat (withArgs [1, 8, 1, 0, 1, 1, 32] State.reset) 3 = 0 ∧
    argNat (withArgs [1, 8, 1, 4, 1, 1, 0] State.reset) 6 = 0 ∧ argNat (withArgs [1, 8, 1, 4, 0, 1, 32] State.reset) 4 = 0 ∧
    (arg (withArgs [1, 0, 1, 1, 1, 1, 1] State.reset) 0 ≠ 0 ∧ arg (withArgs [1, 0, 1, 1, 1, 1, 1] State.reset) 2 ≠ 0 ∧
      arg (withArgs [1, 0, 1, 1, 1, 1, 1] State.reset) 5 ≠ 0 ∧ argNat (withArgs [1, 0, 1, 1, 1, 1, 1] State.reset) 3 ≠ 0 ∧
      argNat (withArgs [1, 0, 1, 1, 1, 1, 1] State.reset) 6 ≠ 0 ∧ argNat (withArgs [1, 0, 1, 1, 1, 1, 1] State.reset) 4 ≠ 0 ∧
      RangeOk State.reset ⟨1, 0⟩ ∧ RangeOk State.reset ⟨1, 1⟩) := by decide
theorem witness_KdfOutputsArePrefixes : 33 ≤ 64 := by decide
/-- FailureChangesOnlyStatusAndResult, FrameOfCommandsThatStoreNothing, and (RESULT) CodesAndResultPerCommand. -/
theorem witness_a_failing_command : nextWith (exec .feiInit State.reset) (fun t => t.status != 0) = true := by decide +kernel
/-- CodesAndResultPerCommand, LifecycleMachines, CommandsWriteTheirOwnUnitOnly, DestroyedIsReset: a command that ends well. -/
theorem witness_a_completing_command : nextWith (exec .feiDestroy State.reset) (fun t => t.status == 0) = true := by decide +kernel
/-- CodesAndResultPerCommand: a set-key command that ends well. -/
theorem witness_a_set_key_command :
    nextWith (exec .spnSetkeyEnc (withArgs [1, 128] State.reset)) (fun t => t.status == 0 && t.result == 10) = true := by
  decide +kernel
/-- OutcomeDoesNotDependOnMem: another memory, everything the rule lists the same. -/
theorem witness_OutcomeDoesNotDependOnMem :
    (setMem [(1, 1)] State.reset).args = State.reset.args ∧ (setMem [(1, 1)] State.reset).regBase = State.reset.regBase ∧
    setMem [(1, 1)] State.reset ≠ State.reset := by decide +kernel
theorem witness_NullOperandFailsFirst :
    lifecycleAllows .kdf State.reset ∧ (operandKinds .kdf)[(5 : Fin 7).val]? = some .addr ∧ arg State.reset 5 = 0 := by
  refine ⟨?_, by decide, by decide⟩
  simp [lifecycleAllows, bulkCommands]
/-- RefusedOnlyWhereTheSpecRefuses: each refusal occurs. -/
theorem witness_RefusedOnlyWhereTheSpecRefuses :
    refusedAs (exec .feiCbcDec State.reset) .feistelNotKeyed = true ∧ refusedAs (exec .spnDec State.reset) .spnNoSchedule = true ∧
    refusedAs (exec .spnDec spnEncOnly) .spnEncryptOnly = true ∧ refusedAs (exec .hashFinal State.reset) .hashNotActive = true ∧
    refusedAs (exec .hashUpdate (withArgs [0xFFFFFFFF, 2] hashing)) .rangeWraps = true ∧
    refusedAs (exec .hashUpdate (withArgs [0x3FFF, 2] (mapped hashing))) .rangeOverRegisters = true := by decide +kernel
/-- BadRangeNeverRuns: HASH_UPDATE past the top by one byte, and over the first byte of the register block only. -/
theorem witness_BadRangeNeverRuns_refused :
    (lifecycleAllows .hashUpdate (withArgs [0xFFFFFFFF, 2] hashing) ∧ checksPass .hashUpdate (withArgs [0xFFFFFFFF, 2] hashing) ∧
      ∃ g ∈ accessedRanges .hashUpdate (withArgs [0xFFFFFFFF, 2] hashing), 2 ^ 32 < g.addr + g.len) ∧
    (lifecycleAllows .hashUpdate (withArgs [0x3FFF, 2] (mapped hashing)) ∧
      checksPass .hashUpdate (withArgs [0x3FFF, 2] (mapped hashing)) ∧
      (∀ g ∈ accessedRanges .hashUpdate (withArgs [0x3FFF, 2] (mapped hashing)), g.addr + g.len ≤ 2 ^ 32) ∧
      ∃ g ∈ accessedRanges .hashUpdate (withArgs [0x3FFF, 2] (mapped hashing)),
        ¬ RangeOk (withArgs [0x3FFF, 2] (mapped hashing)) g) := by
  refine ⟨⟨?_, ?_, by decide⟩, ?_, ?_, by decide, by decide⟩ <;> (first | unfold lifecycleAllows | unfold checksPass)
  all_goals decide
/-- BadRangeNeverRuns: a bad range in a command that ends (with INVALID_LENGTH). -/
theorem witness_BadRangeNeverRuns :
    (∃ g ∈ accessedRanges .feiInit (withArgs [0xFFFFFFFF, 57] State.reset), ¬ RangeOk (withArgs [0xFFFFFFFF, 57] State.reset) g) ∧
    nextWith (exec .feiInit (withArgs [0xFFFFFFFF, 57] State.reset)) (fun t => t.status == 2) = true := by decide +kernel
/-- DestroyedIsReset: HASH_FINAL that ends well. FrameOfStoringCommands: it stores 32 bytes at ARG0. -/
theorem witness_DestroyedIsReset :
    nextWith (exec .hashFinal (withArgs [1] hashing)) (fun t => t.status == 0 && t.mem.length == 32) = true := by decide +kernel
/-- EveryStepKeepsTheCoreInvariant: reset with an access waiting steps to a next state. -/
theorem witness_EveryStepKeepsTheCoreInvariant :
    CoreInv (State.reset.withFetchWord 32 0x30) ∧
    nextWith (step (State.reset.withFetchWord 32 0x30)) (fun t => t.hash.active) = true := by decide +kernel

end Sys2Proof.Tests
end

section
/-! SUPPORT. How many bytes or words the unit functions give, as far as the invariant needs it. -/

namespace Sys2Proof.Machine

/-! ### Digests and derived keys -/

@[simp] theorem finalize_length (hc : HashCtx) : (finalize hc).length = 32 := by
  unfold finalize
  split <;> exact digestOf_length _

@[simp] theorem hashFn_length (M : Bytes) : (hashFn M).length = 32 := finalize_length _

@[simp] theorem hmacFn_length (key msg : Bytes) : (hmacFn key msg).length = 32 := hashFn_length _

theorem kdfIterate_length (pw : Bytes) (n : Nat) (U T : Bytes) (hT : T.length = 32) :
    (kdfIterate pw n U T).length = 32 := by
  induction n generalizing U T with
  | zero => exact hT
  | succ n ih => exact ih _ _ (by simp [hT])

@[simp] theorem kdfBlock_length (pw salt : Bytes) (rounds : Nat) (count : Word) :
    (kdfBlock pw salt rounds count).length = 32 :=
  kdfIterate_length _ _ _ _ (hmacFn_length _ _)

/-- With fuel for all its blocks the output loop gives every byte asked for (45_kdf.md R287). -/
theorem kdfLoop_length (pw salt : Bytes) (rounds fuel count rem : Nat) (h : rem ≤ 32 * fuel) :
    (kdfLoop pw salt rounds fuel count rem).length = rem := by
  induction fuel generalizing count rem with
  | zero => simp only [kdfLoop, List.length_nil]; omega
  | succ fuel ih =>
    rw [kdfLoop, List.length_append, ih _ _ (by omega), List.length_take, kdfBlock_length]
    omega

@[simp] theorem kdfFn_length (pw salt : Bytes) (rounds olen : Nat) : (kdfFn pw salt rounds olen).length = olen :=
  kdfLoop_length _ _ _ _ _ _ (by omega)

/-! ### Key schedules of the SPN unit -/

/-- A fold that appends one word at a time adds as many words as it has steps. -/
theorem length_foldl_append_singleton {α : Type} (f : List Word → α → Word) (l : List α) (W : List Word) :
    (l.foldl (fun W i => W ++ [f W i]) W).length = W.length + l.length := by
  induction l generalizing W with
  | nil => rfl
  | cons i l ih => simp [ih]; omega

theorem roundsOfKeybits_eq_none {keybits : Nat} :
    roundsOfKeybits keybits = .none ↔ keybits ∉ [128, 192, 256] := by
  unfold roundsOfKeybits
  split_ifs <;> simp_all

@[simp] theorem expandEnc_rounds (key : Bytes) (keybits : Nat) :
    (expandEnc key keybits).1 = roundsOfKeybits keybits := by
  unfold expandEnc
  split <;> simp_all

/-- `ExpandEnc` gives the `4 × (rounds + 1)` words of the schedule (42_spn.md R190). -/
theorem expandEnc_length (key : Bytes) {keybits : Nat} (h : keybits ∈ [128, 192, 256]) :
    (expandEnc key keybits).2.length = 4 * (roundsNat (roundsOfKeybits keybits) + 1) := by
  simp only [List.mem_cons, List.not_mem_nil, or_false] at h
  rcases h with rfl | rfl | rfl <;> exact length_foldl_append_singleton _ _ _

@[simp] theorem expandDec_length (nr : Nat) (W : List Word) : (expandDec nr W).length = 4 * (nr + 1) := by
  simp [expandDec]

/-- Past the last word a schedule array holds zeros (10_state.md R29). -/
theorem scheduleArray_past_end {W : List Word} {i : Fin 60} (h : W.length ≤ i.val) : (scheduleArray W)[i] = 0 := by
  simp [scheduleArray, List.getElem?_eq_none h]

end Sys2Proof.Machine
end

section
/-! SUPPORT. Said once for all sixteen commands: a command with a next state fails with a code and changes nothing else
(60_exceptions.md R306), or completes with the effect of its rule. -/

namespace Sys2Proof.Machine

/-- The bytes of `B` placed from address `a` on all lie at buffer addresses, 1 to 2^AW − 1 (20_memory.md R61). -/
def FitsMem (a : Nat) (B : Bytes) : Prop := 0 < a ∧ a + B.length ≤ Config.addressEnd

/-- The bytes that a command passing its checks stores at a pointer lie at buffer addresses. -/
theorem fitsMem_of_checks {rs : List BufRange} {s : State} {k : Fin 7} {B : Bytes} (hp : arg s k ≠ 0)
    (hw : rs.any rangeWraps = false) (hr : ⟨argNat s k, B.length⟩ ∈ rs) : FitsMem (argNat s k) B :=
  ⟨BitVec.toNat_pos_of_ne_zero hp, range_end_of_any hw hr⟩

/-- What each command does to the state when it completes, apart from STATUS and RESULT. -/
inductive Effect (s : State) : Instr → State → Prop
  | feiInit (key : Bytes) : Effect s .feiInit (setFei (keyedContext key) s)
  | feiDestroy : Effect s .feiDestroy (setFei FeistelCtx.zero s)
  | cipher {i : Instr} (hi : i ∈ bulkCommands ∨ i = .spnEnc ∨ i = .spnDec) {a : Nat} {B : Bytes} (hB : FitsMem a B) :
      Effect s i (memWrite a B s)
  | spnSetkey (key : Bytes) {keybits : Nat} (hk : keybits ∈ [128, 192, 256]) :
      Effect s .spnSetkey (setSpn (expandedContext false key keybits) s)
  | spnSetkeyEnc (key : Bytes) {keybits : Nat} (hk : keybits ∈ [128, 192, 256]) :
      Effect s .spnSetkeyEnc (setSpn (expandedContext true key keybits) s)
  | spnDestroy : Effect s .spnDestroy (setSpn SpnCtx.zero s)
  | hashInit : Effect s .hashInit (setHash { ctx := hashInitCtx, active := true } s)
  | hashUpdate (hactive : s.hash.active = true) (X : Bytes) :
      Effect s .hashUpdate (setHash { s.hash with ctx := absorb s.hash.ctx X } s)
  | hashFinal {a : Nat} {B : Bytes} (hB : FitsMem a B) : Effect s .hashFinal (setHash HashUnit.zero (memWrite a B s))
  | hmac {a : Nat} {B : Bytes} (hB : FitsMem a B) : Effect s .hmac (setScratch Scratch.zero (memWrite a B s))
  | kdf {a : Nat} {B : Bytes} (hB : FitsMem a B) : Effect s .kdf (setScratch Scratch.zero (memWrite a B s))

/-- The command fails with a code: STATUS and RESULT are written and nothing else changes (60_exceptions.md R306). -/
def Fails (s t : State) : Prop :=
  ∃ code ∈ [codeInvalidLength, codeNullPtr, codeInvalidParameters], t = setEnd code 0 s

/-- The command completes: its effect, then NO_ERROR and a RESULT of 0 or a round count (10_state.md R44). -/
def Completes (i : Instr) (s t : State) : Prop :=
  ∃ u res, Effect s i u ∧ res ∈ [(0 : Word), 10, 12, 14] ∧ t = setEnd codeNoError res u

theorem fails_nullPtr (s : State) : Fails s (setEnd codeNullPtr 0 s) := ⟨_, by simp, rfl⟩

theorem fails_invalidLength (s : State) : Fails s (setEnd codeInvalidLength 0 s) := ⟨_, by simp, rfl⟩

theorem fails_invalidParameters (s : State) : Fails s (setEnd codeInvalidParameters 0 s) := ⟨_, by simp, rfl⟩

theorem Effect.completes {i : Instr} {s u : State} (h : Effect s i u) : Completes i s (setEnd codeNoError 0 u) :=
  ⟨u, 0, h, by simp, rfl⟩

theorem roundsWord_mem (r : Rounds) : roundsWord r ∈ [(0 : Word), 10, 12, 14] := by
  cases r <;> decide

/-- A bulk command whose block function gives as many bytes as it takes. -/
theorem feistelBulk_outcome {i : Instr} {ptrs : List Word} {f : Bytes → Bytes} {s t : State} (hi : i ∈ bulkCommands)
    (hp : arg s 1 ∈ ptrs)
    (hf : ∀ X : Bytes, X.length = 8 * (argNat s 2 / 8) → (f X).length = 8 * (argNat s 2 / 8))
    (h : feistelBulk i ptrs f s = .next t) : Fails s t ∨ Completes i s t := by
  obtain ⟨-, rfl | rfl | ⟨hnull, hlen, hw, rfl⟩⟩ := feistelBulk_next h
  · exact .inl (fails_nullPtr s)
  · exact .inl (fails_invalidLength s)
  · have hlen' : 8 * (argNat s 2 / 8) = argNat s 2 := by omega
    have hB : (f (readRange s (argRange s 0 2))).length = argNat s 2 := by
      rw [hf _ (by simp [readRange, argRange, hlen']), hlen']
    have hr : (⟨argNat s 1, (f (readRange s (argRange s 0 2))).length⟩ : BufRange) ∈ accessedRanges i s := by
      rw [hB]
      simp only [bulkCommands, List.mem_cons, List.not_mem_nil, or_false] at hi
      rcases hi with rfl | rfl | rfl | rfl <;> simp [accessedRanges, storedRange, argRange]
    exact .inr (Effect.cipher (.inl hi) (fitsMem_of_checks (hnull _ hp) hw hr)).completes

theorem spnBlockCommand_outcome {i : Instr} {f : Bytes → Bytes} {s t : State} (hi : i = .spnEnc ∨ i = .spnDec)
    (hf : ∀ X, (f X).length = 16) (h : spnBlockCommand i f s = .next t) : Fails s t ∨ Completes i s t := by
  obtain rfl | ⟨-, hnull, hw, rfl⟩ := spnBlockCommand_next h
  · exact .inl (fails_nullPtr s)
  · have hr : (⟨argNat s 1, (f (readRange s (argBlock s 0 16))).length⟩ : BufRange) ∈ accessedRanges i s := by
      rw [hf]
      rcases hi with rfl | rfl <;> simp [accessedRanges, storedRange, argBlock]
    exact .inr (Effect.cipher (.inr hi) (fitsMem_of_checks hnull hw hr)).completes

/-- The two set-key commands, `hi` naming the effect of the one at hand. -/
theorem spnSetKey_outcome {i : Instr} {encOnly : Bool} {s t : State}
    (hi : ∀ (key : Bytes) (keybits : Nat), keybits ∈ [128, 192, 256] →
      Effect s i (setSpn (expandedContext encOnly key keybits) s))
    (h : spnSetKey i encOnly s = .next t) : Fails s t ∨ Completes i s t := by
  obtain rfl | rfl | ⟨-, hk, -, rfl⟩ := spnSetKey_next h
  · exact .inl (fails_nullPtr s)
  · exact .inl (fails_invalidLength s)
  · have hk' : argNat s 1 ∈ [128, 192, 256] := not_not.mp fun hn => hk (roundsOfKeybits_eq_none.mpr hn)
    exact .inr ⟨_, _, hi _ _ hk', roundsWord_mem _, rfl⟩

/-- A command with a next state fails with a code or completes. -/
theorem exec_next {i : Instr} {s t : State} (h : exec i s = .next t) : Fails s t ∨ Completes i s t := by
  cases i with
  | feiInit =>
    obtain rfl | rfl | ⟨-, -, -, -, rfl⟩ := execFeiInit_next h
    · exact .inl (fails_nullPtr s)
    · exact .inl (fails_invalidLength s)
    · exact .inr (Effect.feiInit _).completes
  | feiEcbEnc =>
    rw [exec, execFeiEcbEnc] at h
    exact feistelBulk_outcome (by simp [bulkCommands]) (by simp)
      (fun _ _ => ecbBlocks_length _ (feistelEncBlk_length _) _ _) h
  | feiEcbDec =>
    rw [exec, execFeiEcbDec] at h
    exact feistelBulk_outcome (by simp [bulkCommands]) (by simp)
      (fun _ _ => ecbBlocks_length _ (feistelDecBlk_length _) _ _) h
  | feiCbcEnc =>
    rw [exec, execFeiCbcEnc] at h
    exact feistelBulk_outcome (by simp [bulkCommands]) (by simp)
      (fun _ _ => cbcEncBlocks_length _ (feistelEncBlk_length _) _ _ _) h
  | feiCbcDec =>
    rw [exec, execFeiCbcDec] at h
    exact feistelBulk_outcome (by simp [bulkCommands]) (by simp)
      (fun _ => cbcDecBlocks_length _ (feistelDecBlk_length _) _ _ _ (memRead_length _ _ _)) h
  | feiDestroy => exact execFeiDestroy_next h ▸ .inr Effect.feiDestroy.completes
  | spnSetkey => exact spnSetKey_outcome (fun key _ hk => Effect.spnSetkey key hk) h
  | spnSetkeyEnc => exact spnSetKey_outcome (fun key _ hk => Effect.spnSetkeyEnc key hk) h
  | spnEnc => exact spnBlockCommand_outcome (.inl rfl) (spnEncBlock_length _ _) (execSpnEnc_next h).2
  | spnDec => exact spnBlockCommand_outcome (.inr rfl) (spnDecBlock_length _ _) (execSpnDec_next h).2.2
  | spnDestroy => exact execSpnDestroy_next h ▸ .inr Effect.spnDestroy.completes
  | hashInit => exact execHashInit_next h ▸ .inr Effect.hashInit.completes
  | hashUpdate =>
    obtain ⟨hactive, rfl | ⟨-, -, rfl⟩⟩ := execHashUpdate_next h
    · exact .inl (fails_nullPtr s)
    · exact .inr (Effect.hashUpdate hactive _).completes
  | hashFinal =>
    obtain ⟨-, rfl | ⟨hnull, hw, rfl⟩⟩ := execHashFinal_next h
    · exact .inl (fails_nullPtr s)
    · have hr : (⟨argNat s 0, (finalize s.hash.ctx).length⟩ : BufRange) ∈ accessedRanges .hashFinal s := by
        simp [accessedRanges, storedRange, argBlock]
      exact .inr (Effect.hashFinal (fitsMem_of_checks hnull hw hr)).completes
  | hmac =>
    obtain rfl | ⟨hnull, hw, rfl⟩ := execHmac_next h
    · exact .inl (fails_nullPtr s)
    · refine .inr (Effect.hmac (fitsMem_of_checks (hnull _ (by simp)) hw ?_)).completes
      simp [accessedRanges, storedRange, argBlock]
  | kdf =>
    obtain rfl | rfl | ⟨hnull, -, -, -, hw, rfl⟩ := execKdf_next h
    · exact .inl (fails_nullPtr s)
    · exact .inl (fails_invalidParameters s)
    · refine .inr (Effect.kdf (fitsMem_of_checks (hnull _ (by simp)) hw ?_)).completes
      simp [accessedRanges, storedRange, argRange]

end Sys2Proof.Machine
end

section
/-! SUPPORT. The invariant of the machine (spec/10_state.md R26, R29 to R31, R33, R36, R37, R43, R44): each update of the state
keeps it, then each command, each host access and each step. -/

namespace Sys2Proof.Machine

/-! ### The contexts the commands leave -/

/-- `AddBits` by 512 keeps the low counter a multiple of 512: the carry into the high half is one (10_state.md R33). -/
theorem addBits_cntLo_mod (hc : HashCtx) (h : hc.cntLo.toNat % 512 = 0) : (addBits hc 512).cntLo.toNat % 512 = 0 := by
  simp only [addBits, BitVec.toNat_ofNat]
  omega

theorem absorbByte_cntLo_mod (hc : HashCtx) (x : Byte) (h : hc.cntLo.toNat % 512 = 0) :
    (absorbByte hc x).cntLo.toNat % 512 = 0 := by
  unfold absorbByte
  dsimp only
  split
  · exact h
  · exact addBits_cntLo_mod _ h

theorem absorb_cntLo_mod (hc : HashCtx) (X : Bytes) (h : hc.cntLo.toNat % 512 = 0) :
    (absorb hc X).cntLo.toNat % 512 = 0 := by
  induction X generalizing hc with
  | nil => exact h
  | cons x X ih => exact ih _ (absorbByte_cntLo_mod hc x h)

/-- The context a set-key command leaves meets its part of the invariant (10_state.md R29, R30). -/
theorem spnInv_setSpn_expandedContext (s : State) (encOnly : Bool) (key : Bytes) {keybits : Nat}
    (hk : keybits ∈ [128, 192, 256]) : SpnInv (setSpn (expandedContext encOnly key keybits) s) := by
  have hNr : (expandedContext encOnly key keybits).Nr = roundsOfKeybits keybits := expandEnc_rounds key keybits
  refine ⟨fun hnone => ?_, fun honly i => ?_, fun i hi => ⟨?_, ?_⟩⟩
  · exact absurd hk (roundsOfKeybits_eq_none.mp (hNr ▸ hnone))
  · have honly : encOnly = true := honly
    simp [expandedContext, honly]
  · exact scheduleArray_past_end (by rw [expandEnc_length key hk, ← hNr]; exact hi)
  · cases encOnly with
    | true => simp [expandedContext]
    | false => exact scheduleArray_past_end (by rw [expandDec_length]; exact hi)

theorem hashInv_setHash_zero (s : State) : HashInv (setHash HashUnit.zero s) := ⟨fun _ => rfl, rfl⟩

/-! ### The updates of the state -/

/-- The invariant reads seven elements of the state. -/
theorem coreInv_congr {s t : State} (hfei : t.fei = s.fei) (hspn : t.spn = s.spn) (hhash : t.hash = s.hash)
    (hscratch : t.scratch = s.scratch) (hstatus : t.status = s.status) (hresult : t.result = s.result)
    (hmem : t.mem = s.mem) (h : CoreInv s) : CoreInv t := by
  simpa only [CoreInv, FeistelInv, SpnInv, HashInv, ScratchInv, StatusInv, ResultInv, MemInv, hfei, hspn, hhash, hscratch,
    hstatus, hresult, hmem] using h

theorem coreInv_setHost {s : State} (host : List HostAccess) (h : CoreInv s) : CoreInv (setHost host s) :=
  coreInv_congr rfl rfl rfl rfl rfl rfl rfl h

theorem coreInv_setCmd {s : State} (v : Word) (h : CoreInv s) : CoreInv (setCmd v s) :=
  coreInv_congr rfl rfl rfl rfl rfl rfl rfl h

theorem coreInv_setArg {s : State} (n : Nat) (v : Word) (h : CoreInv s) : CoreInv (setArg n v s) :=
  coreInv_congr rfl rfl rfl rfl rfl rfl rfl h

theorem coreInv_setFei {s : State} {c : FeistelCtx} (hc : FeistelInv (setFei c s)) (h : CoreInv s) :
    CoreInv (setFei c s) := by
  obtain ⟨-, hspn, hhash, hscratch, hstatus, hresult, hmem⟩ := h
  exact ⟨hc, (spnInv_congr rfl).mpr hspn, (hashInv_congr rfl).mpr hhash, (scratchInv_congr rfl).mpr hscratch, hstatus,
    hresult, (memInv_congr rfl).mpr hmem⟩

theorem coreInv_setSpn {s : State} {c : SpnCtx} (hc : SpnInv (setSpn c s)) (h : CoreInv s) : CoreInv (setSpn c s) := by
  obtain ⟨hfei, -, hhash, hscratch, hstatus, hresult, hmem⟩ := h
  exact ⟨(feistelInv_congr rfl).mpr hfei, hc, (hashInv_congr rfl).mpr hhash, (scratchInv_congr rfl).mpr hscratch, hstatus,
    hresult, (memInv_congr rfl).mpr hmem⟩

theorem coreInv_setHash {s : State} {c : HashUnit} (hc : HashInv (setHash c s)) (h : CoreInv s) :
    CoreInv (setHash c s) := by
  obtain ⟨hfei, hspn, -, hscratch, hstatus, hresult, hmem⟩ := h
  exact ⟨(feistelInv_congr rfl).mpr hfei, (spnInv_congr rfl).mpr hspn, hc, (scratchInv_congr rfl).mpr hscratch, hstatus,
    hresult, (memInv_congr rfl).mpr hmem⟩

theorem coreInv_setScratch_zero {s : State} (h : CoreInv s) : CoreInv (setScratch Scratch.zero s) := by
  obtain ⟨-, -, -, hscratch, -⟩ := id h
  exact coreInv_congr (s := s) rfl rfl rfl hscratch.symm rfl rfl rfl h

theorem coreInv_memWrite {s : State} {a : Nat} {B : Bytes} (hB : FitsMem a B) (h : CoreInv s) :
    CoreInv (memWrite a B s) := by
  obtain ⟨hfei, hspn, hhash, hscratch, hstatus, hresult, hmem⟩ := h
  exact ⟨(feistelInv_congr rfl).mpr hfei, (spnInv_congr rfl).mpr hspn, (hashInv_congr rfl).mpr hhash,
    (scratchInv_congr rfl).mpr hscratch, hstatus, hresult, writeBytes_wf B s.mem a hB.1 hB.2 hmem⟩

theorem coreInv_setEnd {s : State} {code res : Word} (hcode : code ∈ [(0 : Word), 2, 3, 4])
    (hres : res ∈ [(0 : Word), 10, 12, 14]) (h : CoreInv s) : CoreInv (setEnd code res s) := by
  obtain ⟨hfei, hspn, hhash, hscratch, -, -, hmem⟩ := h
  exact ⟨(feistelInv_congr rfl).mpr hfei, (spnInv_congr rfl).mpr hspn, (hashInv_congr rfl).mpr hhash,
    (scratchInv_congr rfl).mpr hscratch, hcode, hres, (memInv_congr rfl).mpr hmem⟩

/-- The invariant holds where every context, STATUS and RESULT have their reset values (10_state.md R47). -/
theorem coreInv_of_reset {t : State} (hfei : t.fei = FeistelCtx.zero) (hspn : t.spn = SpnCtx.zero)
    (hhash : t.hash = HashUnit.zero) (hscratch : t.scratch = Scratch.zero) (hstatus : t.status = 0)
    (hresult : t.result = 0) (hmem : MemInv t) : CoreInv t := by
  refine ⟨fun _ => hfei, ⟨fun _ => hspn, fun _ i => ?_, fun i _ => ?_⟩, ⟨fun _ => hhash, ?_⟩, hscratch, ?_, ?_, hmem⟩
  · simp [hspn, SpnCtx.zero]
  · simp [hspn, SpnCtx.zero]
  · simp [hhash, HashUnit.zero, HashCtx.zero]
  · simp [StatusInv, hstatus]
  · simp [ResultInv, hresult]

/-! ### Commands, host accesses, steps -/

/-- The effect of every command keeps the invariant. -/
theorem Effect.coreInv {i : Instr} {s u : State} (he : Effect s i u) (h : CoreInv s) : CoreInv u := by
  cases he with
  | feiInit key => exact coreInv_setFei (fun hkeyed => absurd hkeyed (by simp)) h
  | feiDestroy => exact coreInv_setFei (fun _ => rfl) h
  | cipher _ hB => exact coreInv_memWrite hB h
  | spnSetkey key hk => exact coreInv_setSpn (spnInv_setSpn_expandedContext s false key hk) h
  | spnSetkeyEnc key hk => exact coreInv_setSpn (spnInv_setSpn_expandedContext s true key hk) h
  | spnDestroy => exact coreInv_setSpn ⟨fun _ => rfl, by simp [SpnCtx.zero], by simp [SpnCtx.zero]⟩ h
  | hashInit => exact coreInv_setHash ⟨fun hactive => absurd hactive (by simp), rfl⟩ h
  | hashUpdate hactive X =>
    obtain ⟨-, -, ⟨-, hcount⟩, -⟩ := id h
    exact coreInv_setHash ⟨fun hidle => absurd hidle (by simp [hactive]), absorb_cntLo_mod _ X hcount⟩ h
  | hashFinal hB => exact coreInv_setHash (hashInv_setHash_zero _) (coreInv_memWrite hB h)
  | hmac hB => exact coreInv_setScratch_zero (coreInv_memWrite hB h)
  | kdf hB => exact coreInv_setScratch_zero (coreInv_memWrite hB h)

theorem Fails.coreInv {s t : State} (hf : Fails s t) (h : CoreInv s) : CoreInv t := by
  obtain ⟨code, hcode, rfl⟩ := hf
  exact coreInv_setEnd (List.mem_cons_of_mem _ hcode) (by simp) h

theorem exec_keeps_coreInv {i : Instr} {s t : State} (h : CoreInv s) (he : exec i s = .next t) : CoreInv t := by
  obtain hfails | ⟨u, res, heffect, hres, rfl⟩ := exec_next he
  · exact hfails.coreInv h
  · exact coreInv_setEnd (by simp [codeNoError]) hres (heffect.coreInv h)

theorem hostWriteCmd_keeps_coreInv {v : Word} {s t : State} (h : CoreInv s) (hw : hostWriteCmd v s = .next t) :
    CoreInv t := by
  unfold hostWriteCmd at hw
  split at hw
  · exact exec_keeps_coreInv (coreInv_setCmd v h) hw
  · obtain rfl := endFail_next.mp hw
    exact (fails_invalidParameters _).coreInv (coreInv_setCmd v h)

theorem hostWriteReg_keeps_coreInv {n : RegNo} {v : Word} {s t : State} (h : CoreInv s)
    (hw : hostWriteReg n v s = .next t) : CoreInv t := by
  unfold hostWriteReg at hw
  split at hw
  · exact hostWriteCmd_keeps_coreInv h hw
  · split at hw
    · cases hw
      exact coreInv_setArg _ v h
    · cases hw
      exact h

/-- A store of the host that is no fault of the model lies at buffer addresses. -/
theorem hostStore_next {addr : Word} {B : Bytes} {s t : State} (h : hostStore addr B s = .next t) :
    FitsMem addr.toNat B ∧ t = memWrite addr.toNat B s := by
  unfold hostStore at h
  split at h
  · cases h
  next hok =>
    simp only [not_or] at hok
    obtain ⟨hnull, hwraps, -⟩ := hok
    simp only [rangeWraps, decide_eq_true_eq, not_lt] at hwraps
    cases h
    exact ⟨⟨BitVec.toNat_pos_of_ne_zero hnull, hwraps⟩, rfl⟩

theorem hostStep_keeps_coreInv {a : HostAccess} {s t : State} (h : CoreInv s) (hs : hostStep a s = .next t) :
    CoreInv t := by
  cases a with
  | writeReg n v => exact hostWriteReg_keeps_coreInv h hs
  | readReg n => cases hs; exact h
  | writeAt addr v =>
    obtain ⟨n, -, hw⟩ := atRegister_next.mp hs
    exact hostWriteReg_keeps_coreInv h hw
  | readAt addr =>
    obtain ⟨n, -, hr⟩ := atRegister_next.mp hs
    cases hr
    exact h
  | store addr B =>
    obtain ⟨hB, rfl⟩ := hostStore_next hs
    exact coreInv_memWrite hB h
  | reset =>
    obtain ⟨-, -, -, -, -, -, hmem⟩ := h
    cases hs
    exact coreInv_of_reset rfl rfl rfl rfl rfl rfl ((memInv_congr rfl).mpr hmem)
  | powerCycle =>
    cases hs
    exact coreInv_of_reset rfl rfl rfl rfl rfl rfl rfl

/-- With no access waiting a step changes nothing. -/
theorem step_idle {s : State} (h : s.host = []) : step s = .next s := by
  simp [step, h]

/-- A step takes the oldest access waiting (log 1). -/
theorem step_access {s : State} {a : HostAccess} {rest : List HostAccess} (h : s.host = a :: rest) :
    step s = hostStep a (setHost rest s) := by
  simp [step, h]

theorem step_keeps_coreInv {s t : State} (h : CoreInv s) (hs : step s = .next t) : CoreInv t := by
  cases hhost : s.host with
  | nil =>
    rw [step_idle hhost] at hs
    cases hs
    exact h
  | cons a rest => exact hostStep_keeps_coreInv (coreInv_setHost rest h) (step_access hhost ▸ hs)

end Sys2Proof.Machine
end

section
/-! The invariant of the machine: the statements O58 and O59. -/

open Sys2Proof Sys2Proof.Machine

/-- Settles O58: a step is a host access, and each of them, every command included, keeps the invariant. -/
theorem everyStepKeepsTheCoreInvariant : Obligations.EveryStepKeepsTheCoreInvariant :=
  fun _ _ => step_keeps_coreInv

/-- Settles O59: every context is zero at reset, and so are STATUS and RESULT. -/
theorem resetMeetsTheCoreInvariant : Obligations.ResetMeetsTheCoreInvariant :=
  coreInv_of_reset rfl rfl rfl rfl rfl rfl reset_memory_wf

end

section
/-! What each command leaves alone (spec/10_state.md R23, R26, R31, R41, R42): the statement O55. -/

open Sys2Proof Sys2Proof.Machine

/-- Settles O55: a failure writes STATUS and RESULT only, and the effect of a command lies in its own unit and in Mem. -/
theorem commandsWriteTheirOwnUnitOnly : Obligations.CommandsWriteTheirOwnUnitOnly := by
  intro i s t h
  obtain ⟨code, -, rfl⟩ | ⟨u, res, heffect, -, rfl⟩ := exec_next h
  · simp
  · cases heffect <;> simp

end

section
/-! SUPPORT. The registers as the host sees them: reads and writes by number and by address (spec/10_state.md R40 to R45). -/

namespace Sys2Proof.Machine

/-! ### Register reads -/

/-- What a read returns depends on the registers alone (10_state.md R41 to R45). -/
theorem hostRead_congr {s t : State} (n : RegNo) (hcmd : t.cmd = s.cmd) (hargs : t.args = s.args)
    (hstatus : t.status = s.status) (hresult : t.result = s.result) : hostRead t n = hostRead s n := by
  simp only [hostRead, hcmd, hargs, hstatus, hresult]

/-- Registers 1 to 7 are ARG0 to ARG6 (10_state.md R40, R41). -/
theorem hostRead_arg (s : State) (k : Fin 7) (h : k.val + 1 < 10) : hostRead s ⟨k.val + 1, h⟩ = arg s k := by
  simp [hostRead, arg]

/-! ### Register writes -/

theorem hostWriteReg_arg {n : RegNo} (v : Word) (s : State) (h1 : 1 ≤ n.val) (h7 : n.val ≤ 7) :
    hostWriteReg n v s = .next (setArg (n.val - 1) v s) := by
  rw [hostWriteReg, if_neg (by omega), if_pos h7]

theorem hostWriteReg_readOnly {n : RegNo} (v : Word) (s : State) (h8 : 8 ≤ n.val) : hostWriteReg n v s = .next s := by
  rw [hostWriteReg, if_neg (by omega), if_neg (by omega)]

theorem hostRead_setArg_same {n : RegNo} (v : Word) (s : State) (h1 : 1 ≤ n.val) (h7 : n.val ≤ 7) :
    hostRead (setArg (n.val - 1) v s) n = v := by
  have hlt : n.val - 1 < 7 := by omega
  rw [hostRead, if_neg (by omega), if_pos h7]
  simp [hlt]

theorem hostRead_setArg_other {n m : RegNo} (v : Word) (s : State) (h1 : 1 ≤ n.val) (hne : m ≠ n) :
    hostRead (setArg (n.val - 1) v s) m = hostRead s m := by
  unfold hostRead
  split
  · rfl
  · have hval : m.val ≠ n.val := Fin.val_ne_of_ne hne
    have hidx : n.val - 1 ≠ m.val - 1 := by omega
    split
    · simp [List.getElem?_set_ne hidx]
    · rfl

/-! ### Registers at addresses -/

/-- Register `n` is at byte offset `4n` from REG_BASE (10_state.md R40). -/
theorem registerAt_of_offset {b : Word} {n : RegNo} (h : b.toNat + 4 * n.val < 2 ^ 32) :
    registerAt (some b) (BitVec.ofNat 32 (b.toNat + 4 * n.val)) = some n := by
  refine registerAt_some.mpr ⟨b, rfl, ?_⟩
  rw [BitVec.toNat_ofNat, Nat.mod_eq_of_lt h]

/-- At no other address is there a register (log 3). -/
theorem registerAt_eq_none {base : Option Word} {addr : Word}
    (h : ∀ b n, base = some b → addr.toNat ≠ b.toNat + 4 * (n : RegNo).val) : registerAt base addr = none := by
  refine Option.eq_none_iff_forall_ne_some.mpr fun n hn => ?_
  obtain ⟨b, hb, hoffset⟩ := registerAt_some.mp hn
  exact h b n hb hoffset

theorem hostReadAt_some {s : State} {addr : Word} {n : RegNo} (h : registerAt s.regBase addr = some n) :
    hostReadAt s addr = some (hostRead s n) := by
  simp [hostReadAt, h]

theorem hostReadAt_none {s : State} {addr : Word} (h : registerAt s.regBase addr = none) : hostReadAt s addr = none := by
  simp [hostReadAt, h]

/-- Where no register is mapped an access is the model's fault (log 3). -/
theorem atRegister_none {addr : Word} {k : RegNo → State → Out} {s : State} (h : registerAt s.regBase addr = none) :
    atRegister addr k s = .fault .noRegisterAtAddress := by
  simp [atRegister, h]

end Sys2Proof.Machine
end

section
/-! The register port: the statements O5 and O6. -/

open Sys2Proof Sys2Proof.Machine

/-- Settles O6: the address of register `n` reaches it, by `registerAt_of_offset`, and no other address reaches one, by
`registerAt_eq_none`. -/
theorem addressedAccessesReachTheirRegister : Obligations.AddressedAccessesReachTheirRegister := by
  refine ⟨fun s b n hbase hn => ?_, fun s addr h => ?_⟩
  · have hreg : registerAt s.regBase (BitVec.ofNat 32 (b.toNat + 4 * n.val)) = some n := by
      rw [hbase]
      exact registerAt_of_offset hn
    refine ⟨hostReadAt_some hreg, fun rest hhost => ?_, fun v rest hhost => ?_⟩
    · exact (step_access hhost).trans (atRegister_some hreg)
    · exact (step_access hhost).trans (atRegister_some hreg)
  · have hreg : registerAt s.regBase addr = none := registerAt_eq_none h
    refine ⟨hostReadAt_none hreg, fun rest hhost => ?_, fun v rest hhost => ?_⟩
    · exact (step_access hhost).trans (atRegister_none hreg)
    · exact (step_access hhost).trans (atRegister_none hreg)

/-- Settles O5, from what a read and a write of each register do. -/
theorem registerAccessesOtherThanCmd : Obligations.RegisterAccessesOtherThanCmd := by
  refine ⟨fun s n rest hhost => step_access hhost, fun s n v rest hhost h1 h7 => ?_, fun s n v rest hhost h8 => ?_,
    fun s t n => hostRead_congr n, fun s => ⟨rfl, fun k => hostRead_arg s k _, rfl, rfl⟩⟩
  · refine ⟨setArg (n.val - 1) v (setHost rest s), ?_, hostRead_setArg_same v _ h1 h7, fun m hne => ?_, rfl⟩
    · exact (step_access hhost).trans (hostWriteReg_arg v _ h1 h7)
    · exact (hostRead_setArg_other v _ h1 hne).trans (hostRead_congr m rfl rfl rfl rfl)
  · exact (step_access hhost).trans (hostWriteReg_readOnly v _ h8)

end

section
/-! SUPPORT. The reset values (spec/10_state.md R47), then the statement O8. -/

namespace Sys2Proof.Machine

theorem hashCtxAllZero_zero : HashCtxAllZero HashCtx.zero := by
  refine ⟨fun i => ?_, rfl, rfl, fun i => ?_, rfl⟩ <;> simp [HashCtx.zero]

/-- Contexts, scratch and registers that are zero have the values R47 writes out. -/
theorem resetValuesHold_of_zero {t : State} (hfei : t.fei = FeistelCtx.zero) (hspn : t.spn = SpnCtx.zero)
    (hhash : t.hash = HashUnit.zero) (hscratch : t.scratch = Scratch.zero) (hcmd : t.cmd = 0)
    (hargs : t.args = Vector.replicate 7 0) (hstatus : t.status = 0) (hresult : t.result = 0) : ResetValuesHold t := by
  refine ⟨?_, ?_, ?_, ?_, ?_⟩
  · simp [hfei, FeistelCtx.zero]
  · simp [hspn, SpnCtx.zero, roundsNat]
  · exact hhash ▸ ⟨hashCtxAllZero_zero, rfl⟩
  · rw [hscratch]
    exact ⟨hashCtxAllZero_zero, hashCtxAllZero_zero, by simp [Scratch.zero], by simp [Scratch.zero],
      by simp [Scratch.zero]⟩
  · simp [hcmd, hargs, hstatus, hresult]

end Sys2Proof.Machine

open Sys2Proof Sys2Proof.Machine

/-- Settles O8: in all three situations every element but Mem is zero. -/
theorem resetAndPowerUpValues : Obligations.ResetAndPowerUpValues := by
  refine ⟨resetValuesHold_of_zero rfl rfl rfl rfl rfl rfl rfl rfl, fun s rest hhost => ?_, fun s rest hhost => ?_⟩
  · exact ⟨resetCore (setHost rest s), step_access hhost, resetValuesHold_of_zero rfl rfl rfl rfl rfl rfl rfl rfl, rfl,
      fun a => readByte_congr _ _ a rfl rfl, rfl⟩
  · exact ⟨powerUpCore (setHost rest s), step_access hhost, resetValuesHold_of_zero rfl rfl rfl rfl rfl rfl rfl rfl,
      fun _ => rfl, rfl⟩

end

section
/-! Reading and writing Mem (spec/20_memory.md R64, R65): the statement O10. -/

open Sys2Proof Sys2Proof.Machine

/-- Settles O10, from what a read gives and what a read after a write sees. -/
theorem memReadAndMemWrite : Obligations.MemReadAndMemWrite := by
  refine ⟨fun s a n i => ⟨memRead_length s a n, fun hi => ?_⟩, fun s a B i hi => readByte_memWrite_inside s a i B hi,
    fun s a b B hb => readByte_memWrite_outside s a b B hb, fun s a => rfl⟩
  have hi' : i < (memRead s a n).length := by rwa [memRead_length]
  rw [List.getElem?_eq_getElem hi', memRead_getElem]

end

section
/-! SUPPORT. What a command leaves in Mem (spec/20_memory.md R83): the bytes it had, or a string written over the output range of
the command. -/

namespace Sys2Proof.Machine

/-- Mem in `t` is Mem in `s`, or Mem in `s` with a string written that fills the output range of the command (20_memory.md
R83). -/
def StoresOutputOnly (i : Instr) (s t : State) : Prop :=
  t.mem = s.mem ∨ ∃ r ∈ storedRange i s, ∃ B : Bytes, B.length = r.len ∧ t.mem = writeBytes s.mem r.addr B

/-- A bulk command whose block function gives as many bytes as it takes. -/
theorem feistelBulk_storesOutputOnly {i : Instr} {ptrs : List Word} {f : Bytes → Bytes} {s t : State}
    (hr : storedRange i s = some (argRange s 1 2))
    (hf : ∀ X : Bytes, X.length = 8 * (argNat s 2 / 8) → (f X).length = 8 * (argNat s 2 / 8))
    (h : feistelBulk i ptrs f s = .next t) : StoresOutputOnly i s t := by
  obtain ⟨-, rfl | rfl | ⟨-, hlen, -, rfl⟩⟩ := feistelBulk_next h
  · exact .inl rfl
  · exact .inl rfl
  · have hlen' : 8 * (argNat s 2 / 8) = argNat s 2 := by omega
    refine .inr ⟨_, hr, _, ?_, rfl⟩
    exact (hf _ ((memRead_length _ _ _).trans hlen'.symm)).trans hlen'

theorem spnBlockCommand_storesOutputOnly {i : Instr} {f : Bytes → Bytes} {s t : State}
    (hr : storedRange i s = some (argBlock s 1 16)) (hf : ∀ X, (f X).length = 16)
    (h : spnBlockCommand i f s = .next t) : StoresOutputOnly i s t := by
  obtain rfl | ⟨-, -, -, rfl⟩ := spnBlockCommand_next h
  · exact .inl rfl
  · exact .inr ⟨_, hr, _, hf _, rfl⟩

theorem spnSetKey_mem {i : Instr} {encOnly : Bool} {s t : State} (h : spnSetKey i encOnly s = .next t) :
    t.mem = s.mem := by
  obtain rfl | rfl | ⟨-, -, -, rfl⟩ := spnSetKey_next h <;> simp

/-- Every command with a next state leaves Mem but for its output range alone. -/
theorem exec_storesOutputOnly {i : Instr} {s t : State} (h : exec i s = .next t) : StoresOutputOnly i s t := by
  cases i with
  | feiInit => obtain rfl | rfl | ⟨-, -, -, -, rfl⟩ := execFeiInit_next h <;> exact .inl (by simp)
  | feiEcbEnc =>
    rw [exec, execFeiEcbEnc] at h
    exact feistelBulk_storesOutputOnly rfl (fun _ _ => ecbBlocks_length _ (feistelEncBlk_length _) _ _) h
  | feiEcbDec =>
    rw [exec, execFeiEcbDec] at h
    exact feistelBulk_storesOutputOnly rfl (fun _ _ => ecbBlocks_length _ (feistelDecBlk_length _) _ _) h
  | feiCbcEnc =>
    rw [exec, execFeiCbcEnc] at h
    exact feistelBulk_storesOutputOnly rfl (fun _ _ => cbcEncBlocks_length _ (feistelEncBlk_length _) _ _ _) h
  | feiCbcDec =>
    rw [exec, execFeiCbcDec] at h
    exact feistelBulk_storesOutputOnly rfl
      (fun _ => cbcDecBlocks_length _ (feistelDecBlk_length _) _ _ _ (memRead_length _ _ _)) h
  | feiDestroy => exact execFeiDestroy_next h ▸ .inl rfl
  | spnSetkey => exact .inl (spnSetKey_mem h)
  | spnSetkeyEnc => exact .inl (spnSetKey_mem h)
  | spnEnc => exact spnBlockCommand_storesOutputOnly rfl (spnEncBlock_length _ _) (execSpnEnc_next h).2
  | spnDec => exact spnBlockCommand_storesOutputOnly rfl (spnDecBlock_length _ _) (execSpnDec_next h).2.2
  | spnDestroy => exact execSpnDestroy_next h ▸ .inl rfl
  | hashInit => exact execHashInit_next h ▸ .inl rfl
  | hashUpdate => obtain ⟨-, rfl | ⟨-, -, rfl⟩⟩ := execHashUpdate_next h <;> exact .inl (by simp)
  | hashFinal =>
    obtain ⟨-, rfl | ⟨-, -, rfl⟩⟩ := execHashFinal_next h
    · exact .inl rfl
    · exact .inr ⟨_, rfl, _, finalize_length _, rfl⟩
  | hmac =>
    obtain rfl | ⟨-, -, rfl⟩ := execHmac_next h
    · exact .inl rfl
    · exact .inr ⟨_, rfl, _, hmacFn_length _ _, rfl⟩
  | kdf =>
    obtain rfl | rfl | ⟨-, -, -, -, -, rfl⟩ := execKdf_next h
    · exact .inl rfl
    · exact .inl rfl
    · exact .inr ⟨_, rfl, _, kdfFn_length _ _ _ _, rfl⟩

/-- Every byte outside the output range reads as before, every byte at all where the command has no output range
(20_memory.md R83). -/
theorem exec_readByte_outside {i : Instr} {s t : State} {a : Nat} (h : exec i s = .next t)
    (ha : ∀ r ∈ storedRange i s, a < r.addr ∨ r.addr + r.len ≤ a) : readByte t a = readByte s a := by
  obtain ⟨-, -, -, -, -, -, -, -, hpower⟩ := commandsWriteTheirOwnUnitOnly i s t h
  obtain hmem | ⟨r, hr, B, hB, hmem⟩ := exec_storesOutputOnly h
  · exact readByte_congr s t a hmem hpower
  · calc readByte t a
      _ = readByte (memWrite r.addr B s) a := readByte_congr _ _ a hmem hpower
      _ = readByte s a := readByte_memWrite_outside s r.addr a B (by rw [hB]; exact ha r hr)

/-- A command that ends with a code other than NO_ERROR leaves every byte (60_exceptions.md R306). -/
theorem exec_readByte_of_status_ne {i : Instr} {s t : State} (h : exec i s = .next t) (hstatus : t.status ≠ 0)
    (a : Nat) : readByte t a = readByte s a := by
  obtain ⟨code, -, rfl⟩ | ⟨u, res, -, -, rfl⟩ := exec_next h
  · rfl
  · exact absurd rfl hstatus

theorem storedRange_eq_none {i : Instr} (s : State)
    (hi : i ∈ [Instr.feiInit, .feiDestroy, .spnSetkey, .spnSetkeyEnc, .spnDestroy, .hashInit, .hashUpdate]) :
    storedRange i s = none := by
  simp only [List.mem_cons, List.not_mem_nil, or_false] at hi
  rcases hi with rfl | rfl | rfl | rfl | rfl | rfl | rfl <;> rfl

theorem storedRange_of_bulk {i : Instr} (s : State) (hi : i ∈ bulkCommands) :
    storedRange i s = some (argRange s 1 2) := by
  simp only [bulkCommands, List.mem_cons, List.not_mem_nil, or_false] at hi
  rcases hi with rfl | rfl | rfl | rfl <;> rfl

/-- The frame with the output range named: `exec_readByte_outside` where the command has one. -/
theorem exec_readByte_outside_range {i : Instr} {s t : State} {r : BufRange} (h : exec i s = .next t)
    (hr : storedRange i s = some r) (a : Nat) (ha : a < r.addr ∨ r.addr + r.len ≤ a) : readByte t a = readByte s a :=
  exec_readByte_outside h fun _ hr' => Option.mem_unique hr hr' ▸ ha

end Sys2Proof.Machine
end

section
/-! What each command leaves of Mem (spec/20_memory.md R83): the statements O56 and O57. -/

open Sys2Proof Sys2Proof.Machine

/-- Settles O56: the seven commands have no output range, and a failure writes STATUS and RESULT only. -/
theorem frameOfCommandsThatStoreNothing : Obligations.FrameOfCommandsThatStoreNothing := by
  rintro i s t h (hi | hstatus) a
  · exact exec_readByte_outside h (by simp [storedRange_eq_none s hi])
  · exact exec_readByte_of_status_ne h hstatus a

/-- Settles O57: `exec_readByte_outside_range` at the output range of each storing command. -/
theorem frameOfStoringCommands : Obligations.FrameOfStoringCommands := by
  intro i s t h
  refine ⟨fun hi => exec_readByte_outside_range h (storedRange_of_bulk s hi), ?_, ?_, ?_, ?_⟩
  · rintro (rfl | rfl)
    · exact exec_readByte_outside_range h rfl
    · exact exec_readByte_outside_range h rfl
  · rintro rfl
    exact exec_readByte_outside_range h rfl
  · rintro rfl
    exact exec_readByte_outside_range h rfl
  · rintro rfl
    exact exec_readByte_outside_range h rfl

end

section
/-! SUPPORT. Where a command meets its range check (spec/20_memory.md R74, R76): after every lifecycle rule and every check that
fails with a code (log 4), and before it completes. -/

namespace Sys2Proof.Machine

/-! ### Ranges that may be accessed -/

theorem rangeWraps_iff {r : BufRange} : rangeWraps r = true ↔ 2 ^ 32 < r.addr + r.len := decide_eq_true_iff

/-- The two halves of the range check are the two parts of `RangeOk` (20_memory.md R74, R76). -/
theorem rangeOk_iff {s : State} {r : BufRange} :
    RangeOk s r ↔ rangeWraps r = false ∧ rangeOverRegisters s.regBase r = false := by
  have hwraps : rangeWraps r = false ↔ r.addr + r.len ≤ 2 ^ 32 := by
    rw [← Bool.not_eq_true, rangeWraps_iff, not_lt]
  rw [hwraps]
  refine and_congr_right fun _ => ?_
  cases s.regBase with
  | none => simp [rangeOverRegisters]
  | some b =>
    have hblock : Config.registerBlockBytes = 40 := rfl
    simp only [Option.all_some, rangeOverRegisters, decide_eq_true_eq, ← Bool.not_eq_true, Bool.and_eq_true, hblock]
    omega

theorem withRanges_of_wraps {rs : List BufRange} {s : State} {k : State → Out}
    (h : ∃ r ∈ rs, 2 ^ 32 < r.addr + r.len) : withRanges rs s k = .refused .rangeWraps := by
  obtain ⟨r, hr, hlt⟩ := h
  exact if_pos (List.any_eq_true.mpr ⟨r, hr, rangeWraps_iff.mpr hlt⟩)

theorem withRanges_of_overRegisters {rs : List BufRange} {s : State} {k : State → Out}
    (hfit : ∀ r ∈ rs, r.addr + r.len ≤ 2 ^ 32) (h : ∃ r ∈ rs, ¬ RangeOk s r) :
    withRanges rs s k = .refused .rangeOverRegisters := by
  have hnowrap : ∀ r ∈ rs, ¬ rangeWraps r = true := fun r hr hw => (hfit r hr).not_gt (rangeWraps_iff.mp hw)
  obtain ⟨r, hr, hbad⟩ := h
  have hover : rangeOverRegisters s.regBase r = true := by
    simpa [rangeOk_iff, hnowrap r hr] using hbad
  rw [withRanges, if_neg (by simpa using hnowrap), if_pos (List.any_eq_true.mpr ⟨r, hr, hover⟩)]

/-- A range check that lets the command through found every range accessible. -/
theorem rangeOk_of_withRanges_next {rs : List BufRange} {s t : State} {k : State → Out}
    (h : withRanges rs s k = .next t) {r : BufRange} (hr : r ∈ rs) : RangeOk s r := by
  obtain ⟨hw, ho, -⟩ := withRanges_next.mp h
  exact rangeOk_iff.mpr ⟨by simpa using List.any_eq_false.mp hw r hr, by simpa using List.any_eq_false.mp ho r hr⟩

/-! ### The range check in a command -/

/-- The answer `o` is that of the range check when `pass` holds, and whenever it is a next state with NO_ERROR. -/
structure ChecksRanges (pass : Prop) (rs : List BufRange) (s : State) (o : Out) : Prop where
  of_pass : pass → ∃ k, o = withRanges rs s k
  of_noError : ∀ t, o = .next t → t.status = 0 → ∃ k, o = withRanges rs s k

section
variable {pass : Prop} {rs : List BufRange} {s : State} {k : State → Out}

theorem checksRanges_withRanges : ChecksRanges pass rs s (withRanges rs s k) :=
  ⟨fun _ => ⟨k, rfl⟩, fun _ _ _ => ⟨k, rfl⟩⟩

/-- With no range to access there is nothing to check. -/
theorem checksRanges_nil {o : Out} : ChecksRanges pass [] s o :=
  ⟨fun _ => ⟨fun _ => o, rfl⟩, fun _ _ _ => ⟨fun _ => o, rfl⟩⟩

theorem ChecksRanges.require {ok : Bool} {code : Word} (h : ChecksRanges pass rs s (k s)) (hcode : code ≠ 0)
    (hok : pass → ok = true) : ChecksRanges pass rs s (require ok code s k) := by
  cases ok with
  | true => exact h
  | false =>
    refine ⟨fun hpass => absurd (hok hpass) (by simp), fun t ht hstatus => ?_⟩
    obtain rfl := endFail_next.mp ht
    exact absurd hstatus hcode

theorem ChecksRanges.whenReady {ready : Bool} {why : Refusal} (h : ChecksRanges pass rs s (k s))
    (hready : pass → ready = true) : ChecksRanges pass rs s (whenReady ready why s k) := by
  cases ready with
  | true => exact h
  | false => exact ⟨fun hpass => absurd (hready hpass) (by simp), fun _ ht => nomatch ht⟩

end

/-- No pointer among the address operands is NULL where the checks pass. -/
theorem nonNull_of_checksPass {i : Instr} {s : State} (ks : List (Fin 7)) (h : checksPass i s)
    (hks : ∀ k ∈ ks, (operandKinds i)[k.val]? = some .addr) : nonNull (ks.map (arg s)) = true := by
  obtain ⟨hnull, -⟩ := h
  rw [nonNull_iff, List.forall_mem_map]
  exact fun k hk => hnull k (hks k hk)

/-- The four bulk commands, `ks` naming the pointers of the one at hand. -/
theorem feistelBulk_checksRanges {i : Instr} {f : Bytes → Bytes} {s : State} (ks : List (Fin 7)) (hi : i ∈ bulkCommands)
    (hks : ∀ k ∈ ks, (operandKinds i)[k.val]? = some .addr) :
    ChecksRanges (lifecycleAllows i s ∧ checksPass i s) (accessedRanges i s) s (feistelBulk i (ks.map (arg s)) f s) := by
  unfold feistelBulk
  refine .whenReady (.require (.require checksRanges_withRanges (by decide) ?_) (by decide) ?_) ?_
  · rintro ⟨-, -, -, hlen, -⟩
    simpa using hlen hi
  · exact fun ⟨_, hchecks⟩ => nonNull_of_checksPass ks hchecks hks
  · exact fun ⟨⟨hkeyed, _⟩, _⟩ => hkeyed hi

/-- The two set-key commands. -/
theorem spnSetKey_checksRanges {i : Instr} {encOnly : Bool} {s : State} (hi : i = .spnSetkey ∨ i = .spnSetkeyEnc) :
    ChecksRanges (lifecycleAllows i s ∧ checksPass i s) (accessedRanges i s) s (spnSetKey i encOnly s) := by
  unfold spnSetKey
  refine .require (.require checksRanges_withRanges (by decide) ?_) (by decide) ?_
  · rintro ⟨-, -, -, -, hkeybits, -⟩
    rw [bne_iff_ne]
    exact fun hnone => roundsOfKeybits_eq_none.mp hnone (hkeybits hi)
  · exact fun ⟨_, hchecks⟩ => nonNull_of_checksPass [0] hchecks (by rcases hi with rfl | rfl <;> decide)

/-- The two block commands, after their lifecycle rule. -/
theorem spnBlockCommand_checksRanges {i : Instr} {f : Bytes → Bytes} {s : State} (hi : i = .spnEnc ∨ i = .spnDec) :
    ChecksRanges (lifecycleAllows i s ∧ checksPass i s) (accessedRanges i s) s (spnBlockCommand i f s) :=
  .require checksRanges_withRanges (by decide) fun ⟨_, hchecks⟩ =>
    nonNull_of_checksPass [0, 1] hchecks (by rcases hi with rfl | rfl <;> decide)

/-- Every command comes to its range check when its lifecycle and its checks let it, and completes only through it. -/
theorem exec_checksRanges (i : Instr) (s : State) :
    ChecksRanges (lifecycleAllows i s ∧ checksPass i s) (accessedRanges i s) s (exec i s) := by
  cases i with
  | feiInit =>
    rw [exec, execFeiInit]
    refine .require (.require checksRanges_withRanges (by decide) ?_) (by decide) ?_
    · rintro ⟨-, -, hlen, -⟩
      simpa using hlen rfl
    · exact fun ⟨_, hchecks⟩ => nonNull_of_checksPass [0] hchecks (by decide)
  | feiEcbEnc => exact feistelBulk_checksRanges [0, 1] (by decide) (by decide)
  | feiEcbDec => exact feistelBulk_checksRanges [0, 1] (by decide) (by decide)
  | feiCbcEnc => exact feistelBulk_checksRanges [0, 1, 3] (by decide) (by decide)
  | feiCbcDec => exact feistelBulk_checksRanges [0, 1, 3] (by decide) (by decide)
  | feiDestroy => exact checksRanges_nil
  | spnSetkey => exact spnSetKey_checksRanges (.inl rfl)
  | spnSetkeyEnc => exact spnSetKey_checksRanges (.inr rfl)
  | spnEnc =>
    rw [exec, execSpnEnc]
    refine .whenReady (spnBlockCommand_checksRanges (.inl rfl)) ?_
    rintro ⟨⟨-, hkey, -⟩, -⟩
    simpa [spnHasKey] using hkey rfl
  | spnDec =>
    rw [exec, execSpnDec]
    refine .whenReady (.whenReady (spnBlockCommand_checksRanges (.inr rfl)) ?_) ?_
    · rintro ⟨⟨-, -, hkey, -⟩, -⟩
      simpa [spnHasDecryption] using (hkey rfl).2
    · rintro ⟨⟨-, -, hkey, -⟩, -⟩
      simpa [spnHasKey] using (hkey rfl).1
  | spnDestroy => exact checksRanges_nil
  | hashInit => exact checksRanges_nil
  | hashUpdate =>
    rw [exec, execHashUpdate]
    refine .whenReady (.require checksRanges_withRanges (by decide) ?_) ?_
    · exact fun ⟨_, hchecks⟩ => nonNull_of_checksPass [0] hchecks (by decide)
    · exact fun ⟨⟨_, _, _, hactive⟩, _⟩ => hactive (.inl rfl)
  | hashFinal =>
    rw [exec, execHashFinal]
    refine .whenReady (.require checksRanges_withRanges (by decide) ?_) ?_
    · exact fun ⟨_, hchecks⟩ => nonNull_of_checksPass [0] hchecks (by decide)
    · exact fun ⟨⟨_, _, _, hactive⟩, _⟩ => hactive (.inr rfl)
  | hmac =>
    rw [exec, execHmac]
    exact .require checksRanges_withRanges (by decide) fun ⟨_, hchecks⟩ =>
      nonNull_of_checksPass [0, 2, 4] hchecks (by decide)
  | kdf =>
    rw [exec, execKdf]
    refine .require (.require checksRanges_withRanges (by decide) ?_) (by decide) ?_
    · rintro ⟨-, -, -, -, -, hparams⟩
      simpa [and_assoc] using hparams rfl
    · exact fun ⟨_, hchecks⟩ => nonNull_of_checksPass [0, 2, 5] hchecks (by decide)

end Sys2Proof.Machine
end

section
/-! Commands with a range that may not be accessed (spec/20_memory.md R74, R76): the statement O52. -/

open Sys2Proof Sys2Proof.Machine

/-- Settles O52: past its lifecycle and checks a command is its range check, and it completes only through that check. -/
theorem badRangeNeverRuns : Obligations.BadRangeNeverRuns := by
  refine ⟨fun i s hlife hchecks => ?_, fun i s t hbad h hstatus => ?_⟩
  · obtain ⟨k, hk⟩ := (exec_checksRanges i s).of_pass ⟨hlife, hchecks⟩
    rw [hk]
    exact ⟨withRanges_of_wraps, withRanges_of_overRegisters⟩
  · obtain ⟨k, hk⟩ := (exec_checksRanges i s).of_noError t h hstatus
    obtain ⟨r, hr, hnot⟩ := hbad
    exact hnot (rangeOk_of_withRanges_next (hk ▸ h) hr)

end

section
/-! Stores of the host (spec/20_memory.md R62, R65): the statement O7. -/

namespace Sys2Proof.Machine

/-- A store to a range that may be accessed is no fault of the model (log 5). -/
theorem hostStore_of_rangeOk {s : State} {addr : Word} {B : Bytes} (haddr : addr ≠ 0)
    (h : RangeOk s ⟨addr.toNat, B.length⟩) : hostStore addr B s = .next (memWrite addr.toNat B s) := by
  obtain ⟨hwraps, hover⟩ := rangeOk_iff.mp h
  rw [hostStore, if_neg]
  simp only [haddr, hwraps, hover, Bool.false_eq_true, or_self, not_false_eq_true]

end Sys2Proof.Machine

open Sys2Proof Sys2Proof.Machine

/-- Settles O7: the store is a `memWrite` of its bytes. -/
theorem hostStoreWritesItsBytesOnly : Obligations.HostStoreWritesItsBytesOnly := by
  intro s addr B rest hhost haddr hrange
  refine ⟨memWrite addr.toNat B (setHost rest s), ?_, memRead_memWrite_same _ _ _, fun a ha => ?_, rfl⟩
  · exact (step_access hhost).trans (hostStore_of_rangeOk haddr hrange)
  · rw [readByte_memWrite_outside _ _ _ _ ha, readByte_setHost]

end

section
/-! SUPPORT. The decoder of CMD words, said once in both directions (spec/30_encoding.md R90, R92, R95 to R98). -/

namespace Sys2Proof

/-- The opcode map in reverse: an opcode means a command exactly when it is that command's (R92, R96). -/
theorem decodeOpcode_eq_ok_iff {op : Nat} {i : Instr} : decodeOpcode op = .ok i ↔ op = (opcodeOf i).toNat := by
  constructor
  · unfold decodeOpcode
    split <;> intro h <;> cases h <;> rfl
  · rintro rfl
    cases i <;> rfl

/-- The `rsv` bits are all 0 exactly when the value fits the opcode field (R90). -/
theorem rsvField_eq_zero_iff {w : Word} : rsvField w = 0 ↔ w.toNat < 2 ^ 8 := by
  have hzero : (0 : BitVec 24).toNat = 0 := rfl
  rw [rsvField, ← BitVec.toNat_inj, BitVec.extractLsb'_toNat, hzero, Nat.shiftRight_eq_div_pow]
  have hw := w.isLt
  omega

theorem opcodeField_toNat (w : Word) : (opcodeField w).toNat = w.toNat % 2 ^ 8 := by
  simp [opcodeField]

theorem encode_toNat (i : Instr) : (encode i).toNat = (opcodeOf i).toNat :=
  BitVec.toNat_setWidth_of_le (by decide)

/-- A word decodes to a command exactly when it is the encoding of that command (R92, R98). -/
theorem decode_eq_ok_iff {w : Word} {i : Instr} : decode w = .ok i ↔ w = encode i := by
  have hop := (opcodeOf i).isLt
  rw [← BitVec.toNat_inj, encode_toNat]
  unfold decode
  split
  next hrsv =>
    have hlt := rsvField_eq_zero_iff.mp hrsv
    rw [decodeOpcode_eq_ok_iff, opcodeField_toNat, Nat.mod_eq_of_lt hlt]
  next hrsv =>
    rw [rsvField_eq_zero_iff] at hrsv
    simp only [reduceCtorEq, false_iff]
    omega

theorem decode_encode (i : Instr) : decode (encode i) = .ok i := decode_eq_ok_iff.mpr rfl

/-- No command's word lies in the illegal and reserved ranges of R95 and R96. -/
theorem ne_encode_of_reserved {v : Word}
    (h : 2 ^ 8 ≤ v.toNat ∨ v.toNat ≤ 0x0F ∨ (0x15 ≤ v.toNat ∧ v.toNat ≤ 0x1E) ∨ (0x24 ≤ v.toNat ∧ v.toNat ≤ 0x2E) ∨
      (0x33 ≤ v.toNat ∧ v.toNat ≤ 0x3F) ∨ (0x41 ≤ v.toNat ∧ v.toNat ≤ 0x4F) ∨ 0x51 ≤ v.toNat) (i : Instr) :
    v ≠ encode i := by
  rintro rfl
  rw [encode_toNat] at h
  revert h
  cases i <;> decide

end Sys2Proof

namespace Sys2Proof.Machine

/-- A write of a command's word runs the command (R94). -/
theorem hostWriteCmd_of_decode {v : Word} {i : Instr} (s : State) (h : decode v = .ok i) :
    hostWriteCmd v s = exec i (setCmd v s) := by
  simp only [hostWriteCmd, h]

/-- A write of a word that encodes no command executes no operation (R97). -/
theorem hostWriteCmd_of_ne_encode {v : Word} (s : State) (h : ∀ i, v ≠ encode i) :
    hostWriteCmd v s = endFail codeInvalidParameters (setCmd v s) := by
  cases hd : decode v with
  | ok i => exact absurd (decode_eq_ok_iff.mp hd) (h i)
  | error e => simp only [hostWriteCmd, hd]

/-- A step whose access is a CMD write takes it from the queue and makes it (log 1). -/
theorem step_writeCmd {s : State} {v : Word} {rest : List HostAccess} (h : s.host = .writeReg 0 v :: rest) :
    step s = hostWriteCmd v (setHost rest s) := step_access h

end Sys2Proof.Machine
end

section
/-! The CMD words (spec/30_encoding.md R92 to R98): the statements O1, O2, O3 and O4. -/

open Sys2Proof Sys2Proof.Machine

/-- Settles O2: it is `decode_eq_ok_iff`. -/
theorem decodeInvertsEncodeBothWays : Obligations.DecodeInvertsEncodeBothWays := fun _ _ => decode_eq_ok_iff

/-- Settles O3: such a value encodes no command, and writing one executes no operation. -/
theorem illegalAndReservedWordsDoNothing : Obligations.IllegalAndReservedWordsDoNothing :=
  fun _ _ _ hhost hv => (step_writeCmd hhost).trans (hostWriteCmd_of_ne_encode _ (ne_encode_of_reserved hv))

/-- Settles O1: each of the sixteen words is the encoding of its command. -/
theorem opcodeMapWordsDecode : Obligations.OpcodeMapWordsDecode :=
  ⟨decode_encode .feiInit, decode_encode .feiEcbEnc, decode_encode .feiEcbDec, decode_encode .feiCbcEnc,
    decode_encode .feiCbcDec, decode_encode .feiDestroy, decode_encode .spnSetkey, decode_encode .spnSetkeyEnc,
    decode_encode .spnEnc, decode_encode .spnDec, decode_encode .spnDestroy, decode_encode .hashInit,
    decode_encode .hashUpdate, decode_encode .hashFinal, decode_encode .hmac, decode_encode .kdf⟩

/-- Settles O4, from what a step takes from the queue and what a CMD write of a command does. -/
theorem stepRunsTheDecodedCommand : Obligations.StepRunsTheDecodedCommand :=
  ⟨fun _ _ _ _ hhost hv => (step_writeCmd hhost).trans (hostWriteCmd_of_decode _ hv), fun _ => step_idle⟩

end

section
/-! SUPPORT. Issuing a line (spec/30_encoding.md R94, R99): its operands go to ARG0 on, then its CMD word runs its command. -/

namespace Sys2Proof.Machine

/-- The operands stored in order, the first in ARG `n`. -/
def storeOperands (n : Nat) (ops : List Word) (s : State) : State :=
  match ops with
  | [] => s
  | v :: rest => storeOperands (n + 1) rest (setArg n v s)

/-- The state in which the command of an issued line starts: the operands in ARG0 on and the line's word in CMD (R99);
`runAccesses_accessesOf` ties it to the model. -/
def issued (c : Command) (s : State) : State := setCmd (encode c.instr) (storeOperands 0 c.operands s)

/-- Reading an operand register after a write to one. -/
theorem arg_setArg (n : Nat) (v : Word) (s : State) (k : Fin 7) :
    arg (setArg n v s) k = if n = k.val then v else arg s k := by
  simp [arg, Vector.getElem_setIfInBounds]

theorem arg_storeOperands (n : Nat) (ops : List Word) (s : State) (k : Fin 7) :
    arg (storeOperands n ops s) k = if n ≤ k.val then ops.getD (k.val - n) (arg s k) else arg s k := by
  induction ops generalizing n s with
  | nil => simp [storeOperands]
  | cons v rest ih =>
    rw [storeOperands, ih, arg_setArg]
    rcases lt_trichotomy n k.val with hlt | heq | hgt
    · have hidx : k.val - n = (k.val - (n + 1)) + 1 := by omega
      rw [if_pos (by omega), if_neg (by omega), if_pos (by omega), hidx, List.getD_cons_succ]
    · rw [if_neg (by omega), if_pos heq, if_pos (by omega), heq, Nat.sub_self, List.getD_cons_zero]
    · rw [if_neg (by omega), if_neg (by omega), if_neg (by omega)]

/-- Storing operands changes the ARG registers only. -/
theorem storeOperands_eq (n : Nat) (ops : List Word) (s : State) :
    storeOperands n ops s = { s with args := (storeOperands n ops s).args } := by
  induction ops generalizing n s with
  | nil => rfl
  | cons v rest ih => exact ih (n + 1) (setArg n v s)

theorem issued_eq (c : Command) (s : State) :
    issued c s = { s with cmd := encode c.instr, args := (issued c s).args } :=
  congrArg (setCmd (encode c.instr)) (storeOperands_eq 0 c.operands s)

@[simp] theorem issued_fei (c : Command) (s : State) : (issued c s).fei = s.fei := by rw [issued_eq]
@[simp] theorem issued_mem (c : Command) (s : State) : (issued c s).mem = s.mem := by rw [issued_eq]
@[simp] theorem issued_regBase (c : Command) (s : State) : (issued c s).regBase = s.regBase := by rw [issued_eq]
@[simp] theorem issued_powerUps (c : Command) (s : State) : (issued c s).powerUps = s.powerUps := by rw [issued_eq]

/-- Each operand stands in its ARG register, and the registers past them keep their values (R99). -/
theorem arg_issued (c : Command) (s : State) (k : Fin 7) : arg (issued c s) k = c.operands.getD k.val (arg s k) := by
  rw [issued, arg_setCmd, arg_storeOperands, if_pos (Nat.zero_le _), Nat.sub_zero]

/-- The register writes of operands that fit ARG `n` to ARG6 store them; then the accesses after them are made. -/
theorem runAccesses_operandWrites {n : Nat} {ops : List Word} (h : n + ops.length ≤ 7) (rest : List HostAccess)
    (s : State) :
    runAccesses (((operandWrites (n + 1) ops).map fun p => .writeReg p.1 p.2) ++ rest) s =
      runAccesses rest (storeOperands n ops s) := by
  induction ops generalizing n s with
  | nil => rfl
  | cons v ops ih =>
    rw [List.length_cons] at h
    have hreg : (Fin.ofNat 10 (n + 1)).val = n + 1 := Nat.mod_eq_of_lt (by omega)
    have hwrite : hostStep (.writeReg (Fin.ofNat 10 (n + 1)) v) s = .next (setArg n v s) := by
      have := hostWriteReg_arg (n := Fin.ofNat 10 (n + 1)) v s (by omega) (by omega)
      rwa [hreg] at this
    simp only [operandWrites, List.map_cons, List.cons_append, runAccesses, hwrite, storeOperands]
    exact ih (by omega) _

/-- A command has at most seven operands, so its line writes ARG0 to ARG6 only (R91). -/
theorem operands_length_le {c : Command} (h : c.wf = true) : c.operands.length ≤ 7 := by
  rw [Command.wf, beq_iff_eq] at h
  rw [h]
  cases c.instr <;> decide

/-- Issuing a well-formed line runs its command. -/
theorem runAccesses_accessesOf {c : Command} (h : c.wf = true) (s : State) :
    runAccesses (accessesOf c) s = exec c.instr (issued c s) := by
  rw [accessesOf, assemble, List.map_append, runAccesses_operandWrites (by simpa using operands_length_le h)]
  exact runAccesses_cmd c.instr _

/-! ### Sequences of lines -/

section
variable {c : Command} {cs : List Command} {s t : State}

/-- After a line that ends with NO_ERROR the next one is issued (R100). -/
theorem issueAll_cons_of_noError (hc : c.wf = true) (h : exec c.instr (issued c s) = .next t)
    (ht : t.status = codeNoError) : issueAll (c :: cs) s = issueAll cs t := by
  simp only [issueAll, runAccesses_accessesOf hc, h, ht, if_true]

/-- After a line that ends with another status nothing more is issued (R100). -/
theorem issueAll_cons_of_failure (hc : c.wf = true) (h : exec c.instr (issued c s) = .next t)
    (ht : t.status ≠ codeNoError) : issueAll (c :: cs) s = .next t := by
  simp only [issueAll, runAccesses_accessesOf hc, h, ht, if_false]

theorem issueAll_line (hc : c.wf = true) : issueAll [c] s = exec c.instr (issued c s) :=
  (issueAll_singleton c s).trans (runAccesses_accessesOf hc s)

end

end Sys2Proof.Machine

open Sys2Proof Sys2Proof.Machine

/-- Settles O9: the command starts in the state `issued`. -/
theorem assembledLineRunsItsCommand : Obligations.AssembledLineRunsItsCommand :=
  fun c s hc => ⟨issued c s, runAccesses_accessesOf hc s, arg_issued c s, issued_eq c s⟩

end

section
/-! SUPPORT. The commands the pseudo-commands expand to, run forward: what each does where its checks pass, and where a pointer
is NULL (spec/40_feistel.md R130, R134; 43_hash.md R238 to R240). -/

namespace Sys2Proof.Machine

/-- Whether a range may be accessed depends on the place of the register block alone (20_memory.md R74, R76). -/
theorem rangeOk_congr {s t : State} {r : BufRange} (h : t.regBase = s.regBase) : RangeOk t r ↔ RangeOk s r := by
  simp only [RangeOk, h]

/-- A read sees Mem and the power count alone. -/
theorem memRead_congr {s t : State} (a n : Nat) (hmem : t.mem = s.mem) (hpower : t.powerUps = s.powerUps) :
    memRead t a n = memRead s a n :=
  List.map_congr_left fun _ _ => readByte_congr s t _ hmem hpower

/-- A bulk command that passes its checks (R130 to R134). -/
theorem feistelBulk_completes {i : Instr} {ptrs : List Word} {f : Bytes → Bytes} {s : State} (hkeyed : s.fei.keyed = true)
    (hnull : ∀ p ∈ ptrs, p ≠ 0) (hlen : argNat s 2 % 8 = 0) (hr : ∀ r ∈ accessedRanges i s, RangeOk s r) :
    feistelBulk i ptrs f s =
      .next (setEnd codeNoError 0 (memWrite (argNat s 1) (f (readRange s (argRange s 0 2))) s)) := by
  rw [feistelBulk, feistelReady, hkeyed, whenReady_true, nonNull_iff.mpr hnull, require_true, hlen, beq_self_eq_true,
    require_true, withRanges_of_ok hr, endOk, endWith]

/-- ECB of one block is the block transform. -/
theorem ecbBlocks_one (f : Bytes → Bytes) {X : Bytes} (h : X.length = 8) : ecbBlocks f 1 X = f X := by
  rw [ecbBlocks, ecbBlocks, List.append_nil, List.take_of_length_le h.le]

theorem exec_hashUpdate_completes {s : State} (hactive : s.hash.active = true) (hsrc : arg s 0 ≠ 0)
    (hr : RangeOk s (argRange s 0 1)) :
    exec .hashUpdate s = .next (setEnd codeNoError 0
      (setHash { ctx := absorb s.hash.ctx (readRange s (argRange s 0 1)), active := true } s)) := by
  rw [exec, execHashUpdate, hashReady, hactive, whenReady_true, nonNull_iff.mpr (by simpa using hsrc), require_true,
    withRanges_of_ok (by simpa [accessedRanges, loadedRanges, storedRange] using hr), endOk, endWith]
  simp only [hactive]

theorem exec_hashUpdate_null {s : State} (hactive : s.hash.active = true) (hsrc : arg s 0 = 0) :
    exec .hashUpdate s = .next (setEnd codeNullPtr 0 s) := by
  rw [exec, execHashUpdate, hashReady, hactive, whenReady_true,
    nonNull_false_iff.mpr ⟨_, List.mem_singleton_self _, hsrc⟩, require_false, endFail]

theorem exec_hashFinal_completes {s : State} (hactive : s.hash.active = true) (hdst : arg s 0 ≠ 0)
    (hr : RangeOk s (argBlock s 0 32)) :
    exec .hashFinal s = .next (setEnd codeNoError 0
      (setHash HashUnit.zero (memWrite (argNat s 0) (finalize s.hash.ctx) s))) := by
  rw [exec, execHashFinal, hashReady, hactive, whenReady_true, nonNull_iff.mpr (by simpa using hdst), require_true,
    withRanges_of_ok (by simpa [accessedRanges, loadedRanges, storedRange] using hr), endOk, endWith]

theorem exec_hashFinal_null {s : State} (hactive : s.hash.active = true) (hdst : arg s 0 = 0) :
    exec .hashFinal s = .next (setEnd codeNullPtr 0 s) := by
  rw [exec, execHashFinal, hashReady, hactive, whenReady_true,
    nonNull_false_iff.mpr ⟨_, List.mem_singleton_self _, hdst⟩, require_false, endFail]

end Sys2Proof.Machine
end

section
/-! SUPPORT. Issuing the pseudo-commands (spec/30_encoding.md R100). -/

namespace Sys2Proof.Machine

/-! ### FEI_ENC_BLK and FEI_DEC_BLK -/

theorem issuePseudo_feiEncBlk (s : State) (src dst : Word) :
    issuePseudo (.feiEncBlk src dst) s = exec .feiEcbEnc (issued ⟨.feiEcbEnc, [src, dst, 8]⟩ s) := issueAll_line rfl

theorem issuePseudo_feiDecBlk (s : State) (src dst : Word) :
    issuePseudo (.feiDecBlk src dst) s = exec .feiEcbDec (issued ⟨.feiEcbDec, [src, dst, 8]⟩ s) := issueAll_line rfl

section
variable {s : State} {src dst : Word} (hkeyed : s.fei.keyed = true) (hsrc : src ≠ 0) (hdst : dst ≠ 0)
  (hrsrc : RangeOk s ⟨src.toNat, 8⟩) (hrdst : RangeOk s ⟨dst.toNat, 8⟩)
include hkeyed hsrc hdst hrsrc hrdst

/-- An ECB command issued with length 8 in a keyed state, whatever its block transform `f`. -/
theorem feistelBulk_oneBlock {i : Instr} {u : State} (f : Bytes → Bytes)
    (hi : accessedRanges i u = [argRange u 0 2, argRange u 1 2]) (hu : issued ⟨i, [src, dst, 8]⟩ s = u) :
    feistelBulk i [arg u 0, arg u 1] (ecbBlocks f (argNat u 2 / 8)) u =
      .next (setEnd codeNoError 0 (memWrite dst.toNat (f (memRead s src.toNat 8)) u)) := by
  have h0 : arg u 0 = src := hu ▸ arg_issued _ s 0
  have h1 : arg u 1 = dst := hu ▸ arg_issued _ s 1
  have h2 : arg u 2 = 8 := hu ▸ arg_issued _ s 2
  have hlen : argNat u 2 = 8 := congrArg BitVec.toNat h2
  have hregBase : u.regBase = s.regBase := hu ▸ issued_regBase _ s
  have hranges : ∀ r ∈ accessedRanges i u, RangeOk u r := by
    simp only [hi, argRange, argNat, h0, h1, h2, List.forall_mem_cons, rangeOk_congr hregBase]
    exact ⟨hrsrc, hrdst, List.forall_mem_nil _⟩
  have hread : readRange u (argRange u 0 2) = memRead s src.toNat 8 := by
    rw [readRange, argRange, argNat, h0, hlen]
    exact memRead_congr _ _ (hu ▸ issued_mem _ s) (hu ▸ issued_powerUps _ s)
  have hkeyed' : u.fei.keyed = true := by rw [← hu, issued_fei, hkeyed]
  rw [feistelBulk_completes hkeyed' (by simpa [h0, h1] using ⟨hsrc, hdst⟩) (by rw [hlen]) hranges, hread, hlen,
    ecbBlocks_one f (memRead_length _ _ _), argNat, h1]

theorem issuePseudo_feiEncBlk_completes :
    issuePseudo (.feiEncBlk src dst) s = .next (setEnd codeNoError 0
      (memWrite dst.toNat (feistelEncBlk s.fei (memRead s src.toNat 8)) (issued ⟨.feiEcbEnc, [src, dst, 8]⟩ s))) := by
  rw [issuePseudo_feiEncBlk, exec, execFeiEcbEnc, issued_fei]
  exact feistelBulk_oneBlock hkeyed hsrc hdst hrsrc hrdst _ rfl rfl

theorem issuePseudo_feiDecBlk_completes :
    issuePseudo (.feiDecBlk src dst) s = .next (setEnd codeNoError 0
      (memWrite dst.toNat (feistelDecBlk s.fei (memRead s src.toNat 8)) (issued ⟨.feiEcbDec, [src, dst, 8]⟩ s))) := by
  rw [issuePseudo_feiDecBlk, exec, execFeiEcbDec, issued_fei]
  exact feistelBulk_oneBlock hkeyed hsrc hdst hrsrc hrdst _ rfl rfl

end

/-! ### HASH -/

/-- The state after the HASH_INIT of a HASH; `exec_hashInit_issued` ties it to the model. -/
def afterHashInit (s : State) : State :=
  { s with cmd := 0x30, hash := { ctx := hashInitCtx, active := true }, status := 0, result := 0 }

/-- The state in which the HASH_UPDATE of a HASH starts; `issued_hashUpdate` ties it to the model. -/
def beforeHashUpdate (src len : Word) (s : State) : State :=
  { s with
    cmd := 0x31, args := (setArg 1 len (setArg 0 src s)).args, hash := { ctx := hashInitCtx, active := true }
    status := 0, result := 0 }

/-- The state after a HASH_UPDATE that completes; `exec_hashUpdate_beforeHashUpdate` ties it to the model. -/
def afterHashUpdate (src len : Word) (s : State) : State :=
  { beforeHashUpdate src len s with
    hash := { ctx := absorb hashInitCtx (memRead s src.toNat len.toNat), active := true } }

/-- The state in which the HASH_FINAL of a HASH starts; `issued_hashFinal` ties it to the model. The two parts share ARG0, so
of the address of the source nothing is left there. -/
def beforeHashFinal (src len dst : Word) (s : State) : State :=
  { s with
    cmd := 0x32, args := (setArg 1 len (setArg 0 dst s)).args
    hash := { ctx := absorb hashInitCtx (memRead s src.toNat len.toNat), active := true }
    status := 0, result := 0 }

theorem exec_hashInit_issued (s : State) : exec .hashInit (issued ⟨.hashInit, []⟩ s) = .next (afterHashInit s) := rfl

theorem issued_hashUpdate (src len : Word) (s : State) :
    issued ⟨.hashUpdate, [src, len]⟩ (afterHashInit s) = beforeHashUpdate src len s := rfl

theorem issued_hashFinal (src len dst : Word) (s : State) :
    issued ⟨.hashFinal, [dst]⟩ (afterHashUpdate src len s) = beforeHashFinal src len dst s := by
  have hargs : (setArg 0 dst (setArg 1 len (setArg 0 src s))).args = (setArg 1 len (setArg 0 dst s)).args := by
    simp only [setArg_args]
    rw [Vector.setIfInBound_comm _ _ (by decide), Vector.setIfInBounds_setIfInBounds]
  rw [beforeHashFinal, ← hargs]
  rfl

theorem arg_beforeHashUpdate_zero (src len : Word) (s : State) : arg (beforeHashUpdate src len s) 0 = src :=
  issued_hashUpdate src len s ▸ arg_issued ⟨.hashUpdate, [src, len]⟩ _ 0

theorem arg_beforeHashUpdate_one (src len : Word) (s : State) : arg (beforeHashUpdate src len s) 1 = len :=
  issued_hashUpdate src len s ▸ arg_issued ⟨.hashUpdate, [src, len]⟩ _ 1

theorem arg_beforeHashFinal (src len dst : Word) (s : State) : arg (beforeHashFinal src len dst s) 0 = dst :=
  issued_hashFinal src len dst s ▸ arg_issued ⟨.hashFinal, [dst]⟩ _ 0

/-- A source that can be read is absorbed. -/
theorem exec_hashUpdate_beforeHashUpdate {src len : Word} {s : State} (hsrc : src ≠ 0)
    (hr : RangeOk s ⟨src.toNat, len.toNat⟩) :
    exec .hashUpdate (beforeHashUpdate src len s) = .next (afterHashUpdate src len s) := by
  have h0 := arg_beforeHashUpdate_zero src len s
  have hrange : argRange (beforeHashUpdate src len s) 0 1 = ⟨src.toNat, len.toNat⟩ := by
    rw [argRange, argNat, argNat, h0, arg_beforeHashUpdate_one]
  have hread : readRange (beforeHashUpdate src len s) ⟨src.toNat, len.toNat⟩ = memRead s src.toNat len.toNat :=
    memRead_congr _ _ rfl rfl
  rw [exec_hashUpdate_completes rfl (h0.trans_ne hsrc) (hrange ▸ (rangeOk_congr rfl).mpr hr), hrange, hread]
  rfl

/-- HASH comes to its HASH_UPDATE in every state. -/
theorem issuePseudo_hash (src len dst : Word) (s : State) :
    issuePseudo (.hash src len dst) s =
      issueAll [⟨.hashUpdate, [src, len]⟩, ⟨.hashFinal, [dst]⟩] (afterHashInit s) :=
  issueAll_cons_of_noError rfl (exec_hashInit_issued s) rfl

theorem codeNullPtr_ne_noError : codeNullPtr ≠ codeNoError := by decide

/-- HASH with a NULL source ends at HASH_UPDATE. -/
theorem issuePseudo_hash_null (len dst : Word) (s : State) :
    issuePseudo (.hash 0 len dst) s = .next (setEnd codeNullPtr 0 (beforeHashUpdate 0 len s)) := by
  rw [issuePseudo_hash]
  refine issueAll_cons_of_failure rfl ?_ codeNullPtr_ne_noError
  rw [issued_hashUpdate]
  exact exec_hashUpdate_null rfl (arg_beforeHashUpdate_zero 0 len s)

/-- HASH with a source it can read comes to its HASH_FINAL, the bytes absorbed. -/
theorem issuePseudo_hash_final {src len : Word} {s : State} (dst : Word) (hsrc : src ≠ 0)
    (hr : RangeOk s ⟨src.toNat, len.toNat⟩) :
    issuePseudo (.hash src len dst) s = exec .hashFinal (beforeHashFinal src len dst s) := by
  have hupdate : exec .hashUpdate (issued ⟨.hashUpdate, [src, len]⟩ (afterHashInit s)) =
      .next (afterHashUpdate src len s) := by
    rw [issued_hashUpdate, exec_hashUpdate_beforeHashUpdate hsrc hr]
  calc issuePseudo (.hash src len dst) s
    _ = issueAll [⟨.hashUpdate, [src, len]⟩, ⟨.hashFinal, [dst]⟩] (afterHashInit s) := issuePseudo_hash src len dst s
    _ = issueAll [⟨.hashFinal, [dst]⟩] (afterHashUpdate src len s) := issueAll_cons_of_noError rfl hupdate rfl
    _ = exec .hashFinal (issued ⟨.hashFinal, [dst]⟩ (afterHashUpdate src len s)) := issueAll_line rfl
    _ = exec .hashFinal (beforeHashFinal src len dst s) := by rw [issued_hashFinal]

/-- HASH with operands it can use completes: the digest at `dst`, the hash reset. -/
theorem issuePseudo_hash_completes {src len dst : Word} {s : State} (hsrc : src ≠ 0) (hdst : dst ≠ 0)
    (hrsrc : RangeOk s ⟨src.toNat, len.toNat⟩) (hrdst : RangeOk s ⟨dst.toNat, 32⟩) :
    issuePseudo (.hash src len dst) s = .next (setEnd codeNoError 0 (setHash HashUnit.zero
      (memWrite dst.toNat (hashFn (memRead s src.toNat len.toNat)) (beforeHashFinal src len dst s)))) := by
  have h0 : arg (beforeHashFinal src len dst s) 0 = dst := arg_beforeHashFinal src len dst s
  have hrange : RangeOk (beforeHashFinal src len dst s) (argBlock (beforeHashFinal src len dst s) 0 32) := by
    rw [argBlock, argNat, h0]
    exact (rangeOk_congr rfl).mpr hrdst
  rw [issuePseudo_hash_final dst hsrc hrsrc, exec_hashFinal_completes rfl (h0.trans_ne hdst) hrange, argNat, h0,
    hashFn]
  rfl

end Sys2Proof.Machine
end

section
/-! The pseudo-commands (spec/30_encoding.md R100): the statements O41 and O42. -/

open Sys2Proof Sys2Proof.Machine

/-- Settles O41: HASH comes to its HASH_FINAL, which completes. -/
theorem hashPseudoCommandWritesHashFn : Obligations.HashPseudoCommandWritesHashFn := by
  intro s src len dst hsrc hdst hrsrc hrdst
  refine ⟨_, issuePseudo_hash_completes hsrc hdst hrsrc hrdst, setEnd_status _ _ _, ?_, fun a ha => ?_, ?_⟩
  · have hread := memRead_memWrite_same (beforeHashFinal src len dst s) dst.toNat (hashFn (memRead s src.toNat len.toNat))
    rw [hashFn_length] at hread
    rw [memRead_setEnd, memRead_setHash, hread]
  · rw [readByte_setEnd, readByte_setHash, readByte_memWrite_outside _ _ _ _ (by rwa [hashFn_length])]
    exact readByte_congr _ _ a rfl rfl
  · rw [setEnd_hash, setHash_hash, State.reset]

/-- Settles O42, clause by clause from where each pseudo-command comes to its last part. -/
theorem pseudoCommandsExpandAndStopAtAFailure : Obligations.PseudoCommandsExpandAndStopAtAFailure := by
  refine ⟨fun s src dst => ⟨issuePseudo_feiEncBlk s src dst, issuePseudo_feiDecBlk s src dst⟩,
    fun s src dst hkeyed hsrc hdst hrsrc hrdst => ?_, fun s len dst => issuePseudo_hash_null len dst s,
    fun s src len hsrc hr => ?_⟩
  · refine ⟨_, _, issuePseudo_feiEncBlk_completes hkeyed hsrc hdst hrsrc hrdst,
      issuePseudo_feiDecBlk_completes hkeyed hsrc hdst hrsrc hrdst, setEnd_status _ _ _, setEnd_status _ _ _, ?_, ?_⟩
    · rw [setEnd_mem, memWrite_mem, issued_mem]
    · rw [setEnd_mem, memWrite_mem, issued_mem]
  · rw [issuePseudo_hash_final 0 hsrc hr, exec_hashFinal_null rfl (arg_beforeHashFinal src len 0 s)]
    rfl

end

section
/-! SUPPORT. The Feistel block transform run backwards (spec/40_feistel.md R125 to R127). -/

namespace Sys2Proof.Machine

/-! ### Rounds -/

/-- One round with its swap. -/
def swapRound (S : Boxes) (x : Halves) (k : Word) : Halves := (feistelRound S k x).swap

/-- The two XORs after the last round (R125, R126). -/
def whiten (a b : Word) (x : Halves) : Halves := (x.1 ^^^ a, x.2 ^^^ b)

@[simp] theorem whiten_whiten (a b : Word) (x : Halves) : whiten a b (whiten a b x) = x := by
  simp [whiten]

/-- Rounds that all swap, and a swap to undo the last one (R125). -/
theorem feistelRounds_eq_foldl (S : Boxes) {ks : List Word} (x : Halves) (h : ks ≠ []) :
    feistelRounds S ks x = (ks.foldl (swapRound S) x).swap := by
  fun_induction feistelRounds S ks x with
  | case1 x => exact absurd rfl h
  | case2 x k => rw [List.foldl_cons, List.foldl_nil, swapRound, Prod.swap_swap]
  | case3 x k rest hrest ih => exact ih (by simpa using hrest)

/-- A round undoes the round before it: the key XORed into the left half is taken out first, the round function of the half
that is left cancels, and the other half is whitened as the next round to undo expects it. -/
theorem swapRound_whiten_swap_swapRound (S : Boxes) (x : Halves) (k a b : Word) :
    swapRound S (whiten a b (swapRound S x k).swap) a = whiten b k x.swap := by
  have hcancel (u v w : Word) : u ^^^ v ^^^ w ^^^ v = u ^^^ w := by
    rw [BitVec.xor_assoc, BitVec.xor_comm w v, ← BitVec.xor_assoc, BitVec.xor_assoc u, BitVec.xor_self,
      BitVec.xor_zero]
  simp [swapRound, whiten, feistelRound, hcancel]

/-- `n` rounds with keys `K 0` on, whitened, then `n` rounds with keys `K (n + 1)` down to `K 2`. -/
theorem foldl_swapRound_whiten_swap (S : Boxes) (K : Nat → Word) (x : Halves) (n : Nat) :
    ((List.range n).map fun i => K (n + 1 - i)).foldl (swapRound S)
      (whiten (K (n + 1)) (K n) (((List.range n).map K).foldl (swapRound S) x).swap) = whiten (K 1) (K 0) x.swap := by
  induction n with
  | zero => rfl
  | succ n ih =>
    have hdec : ((List.range (n + 1)).map fun i => K (n + 1 + 1 - i)) =
        K (n + 2) :: (List.range n).map fun i => K (n + 1 - i) := by
      simp [List.range_succ_eq_map, Function.comp_def]
    have henc : ((List.range (n + 1)).map K).foldl (swapRound S) x =
        swapRound S (((List.range n).map K).foldl (swapRound S) x) (K n) := by
      rw [List.range_succ, List.map_append, List.foldl_append, List.map_singleton, List.foldl_cons, List.foldl_nil]
    rw [hdec, henc, List.foldl_cons, swapRound_whiten_swap_swapRound, ih]

/-! ### The block transform -/

/-- Sixteen rounds and the whitening, with round key number `i` being `K i`; `feistelEnc_eq` and `feistelDec_eq` tie it to the
model. -/
def feistelWith (S : Boxes) (K : Nat → Word) (x : Halves) : Halves :=
  whiten (K 17) (K 16) (feistelRounds S ((List.range 16).map K) x)

theorem feistelEnc_eq (P : RoundKeys) (S : Boxes) (x : Halves) : feistelEnc P S x = feistelWith S (roundKey P) x := rfl

theorem feistelDec_eq (P : RoundKeys) (S : Boxes) (x : Halves) :
    feistelDec P S x = feistelWith S (fun i => roundKey P (17 - i)) x := rfl

/-- The transform with the round keys in reverse order undoes the transform. -/
theorem feistelWith_reverse_feistelWith (S : Boxes) (K : Nat → Word) (x : Halves) :
    feistelWith S (fun i => K (17 - i)) (feistelWith S K x) = x := by
  have hne (f : Nat → Word) : (List.range 16).map f ≠ [] := by simp
  have hback := foldl_swapRound_whiten_swap S K x 16
  rw [feistelWith, feistelWith, feistelRounds_eq_foldl S _ (hne _), feistelRounds_eq_foldl S _ (hne K), hback]
  exact whiten_whiten (K 0) (K 1) x

theorem feistelDec_feistelEnc (P : RoundKeys) (S : Boxes) (x : Halves) : feistelDec P S (feistelEnc P S x) = x :=
  feistelWith_reverse_feistelWith S (roundKey P) x

/-- Reversing the round keys twice gives them back, so the other order is the same lemma. -/
theorem feistelEnc_feistelDec (P : RoundKeys) (S : Boxes) (x : Halves) : feistelEnc P S (feistelDec P S x) = x :=
  feistelWith_reverse_feistelWith S (fun i => roundKey P (17 - i)) x

/-! ### Blocks of bytes -/

/-- Eight bytes loaded as two words and stored again (20_memory.md R67). -/
theorem bytes32_be32_append {B : Bytes} (h : B.length = 8) : bytes32 (be32 B 0) ++ bytes32 (be32 B 4) = B := by
  match B, h with
  | [_, _, _, _, _, _, _, _], _ => simp [be32, bytes32, wordByte_word4]

theorem feistelDecBlk_feistelEncBlk (c : FeistelCtx) {B : Bytes} (h : B.length = 8) :
    feistelDecBlk c (feistelEncBlk c B) = B := by
  rw [feistelDecBlk, feistelEncBlk, be32_bytes32, be32_bytes32_append, feistelDec_feistelEnc, bytes32_be32_append h]

end Sys2Proof.Machine

open Sys2Proof Sys2Proof.Machine

/-- Settles O20: both ways are the transform with the round keys reversed after the transform. -/
theorem feistelDecAndEncUndoEachOther : Obligations.FeistelDecAndEncUndoEachOther :=
  fun P S x => ⟨feistelDec_feistelEnc P S x, feistelEnc_feistelDec P S x⟩

end

section
/-! SUPPORT. The chaining modes block by block, and run backwards (spec/40_feistel.md R130 to R133). -/

namespace Sys2Proof.Machine

/-! ### Blocks of a string -/

/-- Block `i` of a string, 8 bytes each. -/
def blockAt (i : Nat) (X : Bytes) : Bytes := (X.drop (8 * i)).take 8

@[simp] theorem blockAt_zero_append {A : Bytes} (B : Bytes) (h : A.length = 8) : blockAt 0 (A ++ B) = A :=
  List.take_left' h

theorem blockAt_succ (i : Nat) (X : Bytes) : blockAt (i + 1) X = blockAt i (X.drop 8) := by
  rw [blockAt, blockAt, List.drop_drop, Nat.mul_succ, Nat.add_comm]

@[simp] theorem blockAt_succ_append (i : Nat) {A : Bytes} (B : Bytes) (h : A.length = 8) :
    blockAt (i + 1) (A ++ B) = blockAt i B := by
  rw [blockAt_succ, List.drop_left' h]

/-- The block before block `i`, the IV before the first, is block `i` of the string with the IV put in front. -/
theorem blockAt_append_eq_ite (i : Nat) {V : Bytes} (X : Bytes) (h : V.length = 8) :
    blockAt i (V ++ X) = if i = 0 then V else blockAt (i - 1) X := by
  cases i <;> simp [h]

/-! ### Block `i` of an output -/

section
variable {f : Bytes → Bytes} (hf : ∀ B, (f B).length = 8)
include hf

theorem blockAt_ecbBlocks {m i : Nat} (X : Bytes) (hi : i < m) : blockAt i (ecbBlocks f m X) = f (blockAt i X) := by
  induction m generalizing i X with
  | zero => omega
  | succ m ih =>
    rw [ecbBlocks]
    cases i with
    | zero => rw [blockAt_zero_append _ (hf _)]; rfl
    | succ i => rw [blockAt_succ_append _ _ (hf _), ih _ (by omega), blockAt_succ]

theorem blockAt_cbcEncBlocks {m i : Nat} {V : Bytes} (X : Bytes) (hV : V.length = 8) (hi : i < m) :
    blockAt i (cbcEncBlocks f m V X) = f (xorb (blockAt i X) (blockAt i (V ++ cbcEncBlocks f m V X))) := by
  induction m generalizing i V X with
  | zero => omega
  | succ m ih =>
    rw [blockAt_append_eq_ite i _ hV, cbcEncBlocks]
    cases i with
    | zero => rw [blockAt_zero_append _ (hf _)]; rfl
    | succ i =>
      rw [blockAt_succ_append _ _ (hf _), ih _ (hf _) (by omega), blockAt_succ]
      rfl

theorem blockAt_cbcDecBlocks {m i : Nat} {V X : Bytes} (hV : V.length = 8) (hX : X.length = 8 * m) (hi : i < m) :
    blockAt i (cbcDecBlocks f m V X) = xorb (f (blockAt i X)) (blockAt i (V ++ X)) := by
  induction m generalizing i V X with
  | zero => omega
  | succ m ih =>
    have hfirst : (xorb (f (X.take 8)) V).length = 8 := by simp [hf, hV]
    rw [blockAt_append_eq_ite i _ hV, cbcDecBlocks]
    cases i with
    | zero => rw [blockAt_zero_append _ hfirst]; rfl
    | succ i =>
      rw [blockAt_succ_append _ _ hfirst, ih (by simp; omega) (by simp; omega) (by omega), blockAt_succ,
        List.take_append_drop]
      rfl

end

/-! ### Round trips -/

/-- XORing the same string twice gives the string back. -/
theorem xorb_xorb_cancel {A B : Bytes} (h : A.length = B.length) : xorb (xorb A B) B = A := by
  apply List.ext_getElem (by simp [h])
  intro i _ _
  simp [xorb]

section
variable {f g : Bytes → Bytes} (hf : ∀ B, (f B).length = 8) (hgf : ∀ B, B.length = 8 → g (f B) = B)
include hf hgf

theorem ecbBlocks_ecbBlocks {m : Nat} {X : Bytes} (hX : X.length = 8 * m) : ecbBlocks g m (ecbBlocks f m X) = X := by
  induction m generalizing X with
  | zero => exact (List.length_eq_zero_iff.mp hX).symm
  | succ m ih =>
    rw [ecbBlocks, ecbBlocks, List.take_left' (hf _), List.drop_left' (hf _), hgf _ (by simp; omega),
      ih (by simp; omega), List.take_append_drop]

theorem cbcDecBlocks_cbcEncBlocks {m : Nat} {V X : Bytes} (hV : V.length = 8) (hX : X.length = 8 * m) :
    cbcDecBlocks g m V (cbcEncBlocks f m V X) = X := by
  induction m generalizing V X with
  | zero => exact (List.length_eq_zero_iff.mp hX).symm
  | succ m ih =>
    have hblock : (X.take 8).length = 8 := by simp; omega
    rw [cbcEncBlocks, cbcDecBlocks, List.take_left' (hf _), List.drop_left' (hf _), hgf _ (by simp [hblock, hV]),
      xorb_xorb_cancel (hblock.trans hV.symm), ih (hf _) (by simp; omega), List.take_append_drop]

end

end Sys2Proof.Machine

open Sys2Proof Sys2Proof.Machine

/-- Settles O17: the blocks before block `i` are dropped from output and input alike. -/
theorem ecbOutputIsBlockwise : Obligations.EcbOutputIsBlockwise :=
  fun _ _ _ X hf _ hi => blockAt_ecbBlocks hf X hi

/-- Settles O18: the block before is read from the ciphertext with the IV in front. -/
theorem cbcEncOutputIsAChain : Obligations.CbcEncOutputIsAChain := by
  intro f m i V X hf hV _ hi
  have hprev := blockAt_append_eq_ite i (cbcEncBlocks f m V X) hV
  exact (blockAt_cbcEncBlocks hf X hV hi).trans (by rw [hprev]; rfl)

/-- Settles O19: the block before is read from the input with the IV in front. -/
theorem cbcDecOutputIsBlockwise : Obligations.CbcDecOutputIsBlockwise := by
  intro f m i V X hf hV hX hi
  have hprev := blockAt_append_eq_ite i X hV
  exact (blockAt_cbcDecBlocks hf hV hX hi).trans (by rw [hprev]; rfl)

end

section
/-! SUPPORT. The bulk commands run forward, where a check fails and where all pass (spec/40_feistel.md R130 to R134, R138). -/

namespace Sys2Proof.Machine

/-! ### The checks -/

section
variable {i : Instr} {ptrs : List Word} {f : Bytes → Bytes} {s : State}

theorem feistelBulk_notKeyed (hkeyed : s.fei.keyed = false) : feistelBulk i ptrs f s = .refused .feistelNotKeyed := by
  rw [feistelBulk, feistelReady, hkeyed, whenReady_false]

theorem feistelBulk_null (hkeyed : s.fei.keyed = true) (hnull : ∃ p ∈ ptrs, p = 0) :
    feistelBulk i ptrs f s = .next (setEnd codeNullPtr 0 s) := by
  rw [feistelBulk, feistelReady, hkeyed, whenReady_true, nonNull_false_iff.mpr hnull, require_false, endFail]

theorem feistelBulk_ragged (hkeyed : s.fei.keyed = true) (hnull : ∀ p ∈ ptrs, p ≠ 0) (hlen : argNat s 2 % 8 ≠ 0) :
    feistelBulk i ptrs f s = .next (setEnd codeInvalidLength 0 s) := by
  rw [feistelBulk, feistelReady, hkeyed, whenReady_true, nonNull_iff.mpr hnull, require_true,
    beq_eq_false_iff_ne.mpr hlen, require_false, endFail]

end

/-! ### ECB -/

/-- The command `i` is ECB with the block transform `blk` (R130, R131). -/
structure IsEcb (i : Instr) (blk : FeistelCtx → Bytes → Bytes) : Prop where
  exec_eq : ∀ s, exec i s = feistelBulk i [arg s 0, arg s 1] (ecbBlocks (blk s.fei) (argNat s 2 / 8)) s
  ranges_eq : ∀ s, accessedRanges i s = [argRange s 0 2, argRange s 1 2]

theorem isEcb_feiEcbEnc : IsEcb .feiEcbEnc feistelEncBlk := ⟨fun _ => rfl, fun _ => rfl⟩

theorem isEcb_feiEcbDec : IsEcb .feiEcbDec feistelDecBlk := ⟨fun _ => rfl, fun _ => rfl⟩

section
variable {i : Instr} {blk : FeistelCtx → Bytes → Bytes} {s : State} (hi : IsEcb i blk)
include hi

theorem IsEcb.notKeyed (hkeyed : s.fei.keyed = false) : exec i s = .refused .feistelNotKeyed := by
  rw [hi.exec_eq, feistelBulk_notKeyed hkeyed]

theorem IsEcb.null (hkeyed : s.fei.keyed = true) (hnull : arg s 0 = 0 ∨ arg s 1 = 0) :
    exec i s = .next (setEnd codeNullPtr 0 s) := by
  rw [hi.exec_eq, feistelBulk_null hkeyed (by simpa using hnull.imp Eq.symm Eq.symm)]

theorem IsEcb.ragged (hkeyed : s.fei.keyed = true) (hsrc : arg s 0 ≠ 0) (hdst : arg s 1 ≠ 0)
    (hlen : argNat s 2 % 8 ≠ 0) : exec i s = .next (setEnd codeInvalidLength 0 s) := by
  rw [hi.exec_eq, feistelBulk_ragged hkeyed (by simpa using ⟨hsrc, hdst⟩) hlen]

theorem IsEcb.completes (hkeyed : s.fei.keyed = true) (hsrc : arg s 0 ≠ 0) (hdst : arg s 1 ≠ 0)
    (hlen : argNat s 2 % 8 = 0) (hrsrc : RangeOk s (argRange s 0 2)) (hrdst : RangeOk s (argRange s 1 2)) :
    exec i s = .next (setEnd codeNoError 0
      (memWrite (argNat s 1) (ecbBlocks (blk s.fei) (argNat s 2 / 8) (readRange s (argRange s 0 2))) s)) := by
  have hranges : ∀ r ∈ accessedRanges i s, RangeOk s r := by
    simp only [hi.ranges_eq, List.forall_mem_cons]
    exact ⟨hrsrc, hrdst, List.forall_mem_nil _⟩
  rw [hi.exec_eq, feistelBulk_completes hkeyed (by simpa using ⟨hsrc, hdst⟩) hlen hranges]

end

/-! ### CBC -/

/-- The command `i` chains its blocks by `mode`, from the IV at ARG3 (R132, R133). -/
structure IsCbc (i : Instr) (mode : FeistelCtx → Nat → Bytes → Bytes → Bytes) : Prop where
  exec_eq : ∀ s, exec i s = feistelBulk i [arg s 0, arg s 1, arg s 3]
    (mode s.fei (argNat s 2 / 8) (readRange s (argBlock s 3 8))) s
  ranges_eq : ∀ s, accessedRanges i s = [argBlock s 3 8, argRange s 0 2, argRange s 1 2]

theorem isCbc_feiCbcEnc : IsCbc .feiCbcEnc fun c => cbcEncBlocks (feistelEncBlk c) := ⟨fun _ => rfl, fun _ => rfl⟩

theorem isCbc_feiCbcDec : IsCbc .feiCbcDec fun c => cbcDecBlocks (feistelDecBlk c) := ⟨fun _ => rfl, fun _ => rfl⟩

section
variable {i : Instr} {mode : FeistelCtx → Nat → Bytes → Bytes → Bytes} {s : State} (hi : IsCbc i mode)
include hi

theorem IsCbc.notKeyed (hkeyed : s.fei.keyed = false) : exec i s = .refused .feistelNotKeyed := by
  rw [hi.exec_eq, feistelBulk_notKeyed hkeyed]

theorem IsCbc.null (hkeyed : s.fei.keyed = true) (hnull : arg s 0 = 0 ∨ arg s 1 = 0 ∨ arg s 3 = 0) :
    exec i s = .next (setEnd codeNullPtr 0 s) := by
  rw [hi.exec_eq, feistelBulk_null hkeyed (by simpa using hnull.imp Eq.symm (.imp Eq.symm Eq.symm))]

theorem IsCbc.ragged (hkeyed : s.fei.keyed = true) (hsrc : arg s 0 ≠ 0) (hdst : arg s 1 ≠ 0) (hiv : arg s 3 ≠ 0)
    (hlen : argNat s 2 % 8 ≠ 0) : exec i s = .next (setEnd codeInvalidLength 0 s) := by
  rw [hi.exec_eq, feistelBulk_ragged hkeyed (by simpa using ⟨hsrc, hdst, hiv⟩) hlen]

theorem IsCbc.completes (hkeyed : s.fei.keyed = true) (hsrc : arg s 0 ≠ 0) (hdst : arg s 1 ≠ 0) (hiv : arg s 3 ≠ 0)
    (hlen : argNat s 2 % 8 = 0) (hrsrc : RangeOk s (argRange s 0 2)) (hrdst : RangeOk s (argRange s 1 2))
    (hriv : RangeOk s (argBlock s 3 8)) :
    exec i s = .next (setEnd codeNoError 0
      (memWrite (argNat s 1)
        (mode s.fei (argNat s 2 / 8) (readRange s (argBlock s 3 8)) (readRange s (argRange s 0 2))) s)) := by
  have hranges : ∀ r ∈ accessedRanges i s, RangeOk s r := by
    simp only [hi.ranges_eq, List.forall_mem_cons]
    exact ⟨hriv, hrsrc, hrdst, List.forall_mem_nil _⟩
  rw [hi.exec_eq, feistelBulk_completes hkeyed (by simpa using ⟨hsrc, hdst, hiv⟩) hlen hranges]

end

/-! ### FEI_INIT -/

theorem exec_feiInit_null {s : State} (hkey : arg s 0 = 0) : exec .feiInit s = .next (setEnd codeNullPtr 0 s) := by
  rw [exec, execFeiInit, nonNull_false_iff.mpr ⟨_, List.mem_singleton_self _, hkey⟩, require_false, endFail]

theorem exec_feiInit_badLength {s : State} (hkey : arg s 0 ≠ 0) (hlen : argNat s 1 < 4 ∨ 56 < argNat s 1) :
    exec .feiInit s = .next (setEnd codeInvalidLength 0 s) := by
  have hcheck : (decide (4 ≤ argNat s 1) && decide (argNat s 1 ≤ 56)) = false := by
    rw [← Bool.decide_and, decide_eq_false_iff_not]
    omega
  rw [exec, execFeiInit, nonNull_iff.mpr (by simpa using hkey), require_true, hcheck, require_false, endFail]

theorem exec_feiInit_completes {s : State} (hkey : arg s 0 ≠ 0) (hmin : 4 ≤ argNat s 1) (hmax : argNat s 1 ≤ 56)
    (hr : RangeOk s (argRange s 0 1)) :
    exec .feiInit s =
      .next (setEnd codeNoError 0 (setFei (keyedContext (readRange s (argRange s 0 1))) s)) := by
  rw [exec, execFeiInit, nonNull_iff.mpr (by simpa using hkey), require_true, decide_eq_true hmin, decide_eq_true hmax,
    Bool.and_self, require_true,
    withRanges_of_ok (by simpa [accessedRanges, loadedRanges, storedRange] using hr), endOk, endWith]

end Sys2Proof.Machine
end

section
/-! The Feistel commands (spec/40_feistel.md R129 to R135): the statements O11 to O16. -/

open Sys2Proof Sys2Proof.Machine

/-- Settles O11, in the order of the checks of R129. (By `rfl` the last equation would evaluate the key schedule.) -/
theorem feiInitBuildsTheKeySchedule : Obligations.FeiInitBuildsTheKeySchedule := by
  refine ⟨decode_encode .feiInit, fun s => ⟨exec_feiInit_null, exec_feiInit_badLength, fun hkey hmin hmax hr => ?_⟩⟩
  rw [exec_feiInit_completes hkey hmin hmax hr]
  simp only [setEnd, setFei, codeNoError, keyedContext, readRange, argRange]

/-- Settles O12: FEI_ECB_ENC is ECB with `EncBlk`. -/
theorem feiEcbEncEncryptsEachBlock : Obligations.FeiEcbEncEncryptsEachBlock :=
  have hi := isEcb_feiEcbEnc
  ⟨decode_encode .feiEcbEnc, fun _ => ⟨hi.notKeyed, hi.null, hi.ragged, hi.completes⟩⟩

/-- Settles O13: FEI_ECB_DEC is ECB with `DecBlk`. -/
theorem feiEcbDecDecryptsEachBlock : Obligations.FeiEcbDecDecryptsEachBlock :=
  have hi := isEcb_feiEcbDec
  ⟨decode_encode .feiEcbDec, fun _ => ⟨hi.notKeyed, hi.null, hi.ragged, hi.completes⟩⟩

/-- Settles O14: FEI_CBC_ENC chains by CBC encryption with `EncBlk`. -/
theorem feiCbcEncChainsTheBlocks : Obligations.FeiCbcEncChainsTheBlocks :=
  have hi := isCbc_feiCbcEnc
  ⟨decode_encode .feiCbcEnc, fun _ => ⟨hi.notKeyed, hi.null, hi.ragged, hi.completes⟩⟩

/-- Settles O15: FEI_CBC_DEC chains by CBC decryption with `DecBlk`. -/
theorem feiCbcDecUnchainsTheBlocks : Obligations.FeiCbcDecUnchainsTheBlocks :=
  have hi := isCbc_feiCbcDec
  ⟨decode_encode .feiCbcDec, fun _ => ⟨hi.notKeyed, hi.null, hi.ragged, hi.completes⟩⟩

/-- Settles O16: it completes in every state with the context of reset, so the second time the state is the same. -/
theorem feiDestroyWipesTheContext : Obligations.FeiDestroyWipesTheContext :=
  ⟨decode_encode .feiDestroy, fun s => ⟨setEnd codeNoError 0 (setFei FeistelCtx.zero s), rfl,
    by simp [FeistelCtx.zero], by simp [FeistelCtx.zero], rfl, rfl, rfl⟩⟩

end

section
/-! SUPPORT. A bulk command that reads the output of the one before it (spec/40_feistel.md R131, R133), then the statements O21
and O22. -/

namespace Sys2Proof.Machine

/-- A length that passes the check of R134 is that of its blocks. -/
theorem eight_mul_blocks {s : State} (hlen : argNat s 2 % 8 = 0) : 8 * (argNat s 2 / 8) = argNat s 2 :=
  Nat.mul_div_cancel' (Nat.dvd_of_mod_eq_zero hlen)

theorem readRange_length (s : State) (r : BufRange) : (readRange s r).length = r.len := memRead_length s r.addr r.len

/-- The state in which the second of two bulk commands starts, the first having left `C` as its output in the state `s`: that
output is its source, `back` its destination; the length and the IV address stay. -/
def outputAsSource (back : Word) (C : Bytes) (s : State) : State :=
  setArg 0 (arg s 1) (setArg 1 back (setEnd codeNoError 0 (memWrite (argNat s 1) C s)))

section
variable (back : Word) (C : Bytes) (s : State)

@[simp] theorem outputAsSource_fei : (outputAsSource back C s).fei = s.fei := rfl

@[simp] theorem rangeOk_outputAsSource (r : BufRange) : RangeOk (outputAsSource back C s) r ↔ RangeOk s r :=
  rangeOk_congr rfl

theorem arg_outputAsSource (k : Fin 7) :
    arg (outputAsSource back C s) k = if 0 = k.val then arg s 1 else if 1 = k.val then back else arg s k := by
  rw [outputAsSource, arg_setArg, arg_setArg, arg_setEnd, arg_memWrite]

@[simp] theorem arg_outputAsSource_src : arg (outputAsSource back C s) 0 = arg s 1 := arg_outputAsSource back C s 0
@[simp] theorem arg_outputAsSource_dst : arg (outputAsSource back C s) 1 = back := arg_outputAsSource back C s 1
@[simp] theorem arg_outputAsSource_iv : arg (outputAsSource back C s) 3 = arg s 3 := arg_outputAsSource back C s 3

@[simp] theorem argNat_outputAsSource_dst : argNat (outputAsSource back C s) 1 = back.toNat :=
  congrArg BitVec.toNat (arg_outputAsSource back C s 1)

@[simp] theorem argNat_outputAsSource_len : argNat (outputAsSource back C s) 2 = argNat s 2 :=
  congrArg BitVec.toNat (arg_outputAsSource back C s 2)

@[simp] theorem argRange_outputAsSource_src : argRange (outputAsSource back C s) 0 2 = argRange s 1 2 := by
  simp [argRange, argNat, arg_outputAsSource]

@[simp] theorem argRange_outputAsSource_dst : argRange (outputAsSource back C s) 1 2 = ⟨back.toNat, argNat s 2⟩ := by
  simp [argRange]

@[simp] theorem argBlock_outputAsSource_iv (n : Nat) : argBlock (outputAsSource back C s) 3 n = argBlock s 3 n := by
  simp [argBlock, argNat]

theorem readRange_outputAsSource (r : BufRange) :
    readRange (outputAsSource back C s) r = readRange (memWrite (argNat s 1) C s) r := memRead_congr _ _ rfl rfl

end

section
variable {s : State} {back : Word} {C : Bytes}

/-- The source of the second command reads as the output of the first. -/
theorem readRange_outputAsSource_src (hC : C.length = argNat s 2) :
    readRange (outputAsSource back C s) (argRange s 1 2) = C := by
  rw [readRange_outputAsSource, readRange, argRange, ← hC]
  exact memRead_memWrite_same s (argNat s 1) C

/-- An IV that the first command does not overwrite reads the same in the second. -/
theorem readRange_outputAsSource_iv (hC : C.length = argNat s 2)
    (hiv : argNat s 3 + 8 ≤ argNat s 1 ∨ argNat s 1 + argNat s 2 ≤ argNat s 3) :
    readRange (outputAsSource back C s) (argBlock s 3 8) = readRange s (argBlock s 3 8) := by
  rw [readRange_outputAsSource]
  exact memRead_memWrite_disjoint s (argNat s 1) (argNat s 3) 8 C (hC ▸ hiv)

/-- A second ECB command transforms the output of the first. -/
theorem IsEcb.completes_outputAsSource {i : Instr} {blk : FeistelCtx → Bytes → Bytes} (hi : IsEcb i blk)
    (hC : C.length = argNat s 2) (hkeyed : s.fei.keyed = true) (hdst : arg s 1 ≠ 0) (hback : back ≠ 0)
    (hlen : argNat s 2 % 8 = 0) (hrdst : RangeOk s (argRange s 1 2)) (hrback : RangeOk s ⟨back.toNat, argNat s 2⟩) :
    exec i (outputAsSource back C s) = .next (setEnd codeNoError 0
      (memWrite back.toNat (ecbBlocks (blk s.fei) (argNat s 2 / 8) C) (outputAsSource back C s))) := by
  have hrun := hi.completes (s := outputAsSource back C s) hkeyed (by simpa using hdst) (by simpa using hback)
    (by simpa using hlen) (by simpa using hrdst) (by simpa using hrback)
  simpa only [argNat_outputAsSource_dst, argNat_outputAsSource_len, argRange_outputAsSource_src, outputAsSource_fei,
    readRange_outputAsSource_src hC] using hrun

/-- A second CBC command transforms the output of the first, with the same IV bytes. -/
theorem IsCbc.completes_outputAsSource {i : Instr} {mode : FeistelCtx → Nat → Bytes → Bytes → Bytes} (hi : IsCbc i mode)
    (hC : C.length = argNat s 2) (hkeyed : s.fei.keyed = true) (hdst : arg s 1 ≠ 0) (hback : back ≠ 0)
    (hiv : arg s 3 ≠ 0) (hlen : argNat s 2 % 8 = 0) (hrdst : RangeOk s (argRange s 1 2))
    (hrback : RangeOk s ⟨back.toNat, argNat s 2⟩) (hriv : RangeOk s (argBlock s 3 8))
    (hapart : argNat s 3 + 8 ≤ argNat s 1 ∨ argNat s 1 + argNat s 2 ≤ argNat s 3) :
    exec i (outputAsSource back C s) = .next (setEnd codeNoError 0
      (memWrite back.toNat (mode s.fei (argNat s 2 / 8) (readRange s (argBlock s 3 8)) C) (outputAsSource back C s))) := by
  have hrun := hi.completes (s := outputAsSource back C s) hkeyed (by simpa using hdst) (by simpa using hback)
    (by simpa using hiv) (by simpa using hlen) (by simpa using hrdst) (by simpa using hrback) (by simpa using hriv)
  simpa only [argNat_outputAsSource_dst, argNat_outputAsSource_len, argRange_outputAsSource_src,
    argBlock_outputAsSource_iv, outputAsSource_fei, readRange_outputAsSource_src hC,
    readRange_outputAsSource_iv hC hapart] using hrun

/-- One command leaves `C` at its destination, the next reads it there and leaves the plaintext at `back`: a round trip. -/
theorem roundTrip_of_exec {enc dec : Instr}
    (henc : exec enc s = .next (setEnd codeNoError 0 (memWrite (argNat s 1) C s)))
    (hdec : exec dec (outputAsSource back C s) = .next (setEnd codeNoError 0
      (memWrite back.toNat (readRange s (argRange s 0 2)) (outputAsSource back C s)))) :
    ∃ t u, exec enc s = .next t ∧ exec dec (setArg 0 (arg s 1) (setArg 1 back t)) = .next u ∧
      u.status = 0 ∧ memRead u back.toNat (argNat s 2) = memRead s (argNat s 0) (argNat s 2) := by
  refine ⟨_, _, henc, hdec, setEnd_status _ _ _, ?_⟩
  have hread := memRead_memWrite_same (outputAsSource back C s) back.toNat (readRange s (argRange s 0 2))
  rwa [readRange_length] at hread

end

end Sys2Proof.Machine

open Sys2Proof Sys2Proof.Machine

/-- Settles O21: the second command finds the ciphertext at its source and decrypts it block by block. -/
theorem ecbCommandsRoundTrip : Obligations.EcbCommandsRoundTrip := by
  intro s back hkeyed hsrc hdst hlen hrsrc hrdst hback hrback
  refine roundTrip_of_exec (isEcb_feiEcbEnc.completes hkeyed hsrc hdst hlen hrsrc hrdst) ?_
  have hblocks := eight_mul_blocks hlen
  generalize hcipher : ecbBlocks (feistelEncBlk s.fei) (argNat s 2 / 8) (readRange s (argRange s 0 2)) = C
  have hC : C.length = argNat s 2 := by rw [← hcipher, ecbBlocks_length _ (feistelEncBlk_length _), hblocks]
  have hplain : ecbBlocks (feistelDecBlk s.fei) (argNat s 2 / 8) C = readRange s (argRange s 0 2) := by
    rw [← hcipher]
    exact ecbBlocks_ecbBlocks (feistelEncBlk_length _) (fun _ => feistelDecBlk_feistelEncBlk _)
      ((readRange_length _ _).trans hblocks.symm)
  rw [isEcb_feiEcbDec.completes_outputAsSource hC hkeyed hdst hback hlen hrdst hrback, hplain]

/-- Settles O22: as O21, and the second command finds the IV unchanged. -/
theorem cbcCommandsRoundTrip : Obligations.CbcCommandsRoundTrip := by
  intro s back hkeyed hsrc hdst hiv hlen hrsrc hrdst hriv hapart hback hrback
  refine roundTrip_of_exec (isCbc_feiCbcEnc.completes hkeyed hsrc hdst hiv hlen hrsrc hrdst hriv) ?_
  have hblocks := eight_mul_blocks hlen
  generalize hcipher : cbcEncBlocks (feistelEncBlk s.fei) (argNat s 2 / 8) (readRange s (argBlock s 3 8))
    (readRange s (argRange s 0 2)) = C
  have hC : C.length = argNat s 2 := by rw [← hcipher, cbcEncBlocks_length _ (feistelEncBlk_length _), hblocks]
  have hplain : cbcDecBlocks (feistelDecBlk s.fei) (argNat s 2 / 8) (readRange s (argBlock s 3 8)) C =
      readRange s (argRange s 0 2) := by
    rw [← hcipher]
    exact cbcDecBlocks_cbcEncBlocks (feistelEncBlk_length _) (fun _ => feistelDecBlk_feistelEncBlk _)
      (readRange_length _ _) ((readRange_length _ _).trans hblocks.symm)
  rw [isCbc_feiCbcDec.completes_outputAsSource hC hkeyed hdst hback hiv hlen hrdst hrback hriv hapart, hplain]

end

section
/-! SUPPORT. Arithmetic of the SPN unit (spec/42_spn.md R181, R187, R188): multiplication by a fixed factor is linear, so the
inverse mixing matrix may be taken to a mixed column one byte at a time. Then the statement O30. -/

namespace Sys2Proof.Machine

/-! ### Multiplication -/

theorem xtime_xor (a b : Byte) : xtime (a ^^^ b) = xtime a ^^^ xtime b := by
  simp only [xtime, BitVec.getLsbD_xor, BitVec.shiftLeft_xor_distrib]
  generalize a <<< 1 = x, b <<< 1 = y
  cases a.getLsbD 7 <;> cases b.getLsbD 7
  · rfl
  · exact BitVec.xor_assoc x y 0x1B
  · show x ^^^ y ^^^ 0x1B = x ^^^ 0x1B ^^^ y
    ac_rfl
  · calc x ^^^ y
      _ = x ^^^ y ^^^ (0x1B ^^^ 0x1B) := BitVec.xor_zero.symm
      _ = x ^^^ 0x1B ^^^ (y ^^^ 0x1B) := by ac_rfl

theorem xtimeN_xor (i : Nat) (a b : Byte) : xtimeN i (a ^^^ b) = xtimeN i a ^^^ xtimeN i b := by
  induction i with
  | zero => rfl
  | succ i ih => simp only [xtimeN, ih, xtime_xor]

/-- A conditional XOR of sums is the sum of two conditional XORs. -/
theorem foldl_ite_xor (p : Nat → Bool) (f g : Nat → Byte) (l : List Nat) (x y : Byte) :
    l.foldl (fun acc i => if p i then acc ^^^ (f i ^^^ g i) else acc) (x ^^^ y) =
      l.foldl (fun acc i => if p i then acc ^^^ f i else acc) x ^^^
        l.foldl (fun acc i => if p i then acc ^^^ g i else acc) y := by
  induction l generalizing x y with
  | nil => rfl
  | cons i l ih =>
    simp only [List.foldl_cons, ← ih]
    congr 1
    split
    · ac_rfl
    · rfl

/-- Multiplication by a fixed factor distributes over XOR (R181). -/
theorem gmul_xor (a b k : Byte) : gmul (a ^^^ b) k = gmul a k ^^^ gmul b k := by
  simp only [gmul, xtimeN_xor]
  exact foldl_ite_xor k.getLsbD (xtimeN · a) (xtimeN · b) _ 0 0

@[simp] theorem gmul_one (a : Byte) : gmul a 1 = a := BitVec.zero_xor

/-! ### Column mixing -/

/-- One byte of inverse column mixing, from the bytes of its column in the order of its row (R188); `cell_invMixColumns` and
`wordByte_invMixWord` tie it to the model. -/
def invMixByte (a b c d : Byte) : Byte := gmul a 14 ^^^ gmul b 11 ^^^ gmul c 13 ^^^ gmul d 9

theorem cell_mixColumns (s : Block) (r c : Fin 4) :
    cell (mixColumns s) r c =
      gmul (cell s r c) 2 ^^^ gmul (cell s (r + 1) c) 3 ^^^ cell s (r + 2) c ^^^ cell s (r + 3) c := by
  simp only [mixColumns, mixWith, cell_blockOf, gmul_one]

theorem cell_invMixColumns (s : Block) (r c : Fin 4) :
    cell (invMixColumns s) r c =
      invMixByte (cell s r c) (cell s (r + 1) c) (cell s (r + 2) c) (cell s (r + 3) c) := by
  rw [invMixColumns, mixWith, cell_blockOf, invMixByte]

/-- The rows of a mixing matrix are the rotations of its first row, so the same four products stand in a row from another
start on. -/
theorem xor_rotate (a b c d : Byte) : a ^^^ b ^^^ c ^^^ d = b ^^^ c ^^^ d ^^^ a := by ac_rfl

theorem wordByte_invMixWord (w : Word) (r : Fin 4) :
    wordByte (invMixWord w) r =
      invMixByte (wordByte w r) (wordByte w (r + 1).val) (wordByte w (r + 2).val) (wordByte w (r + 3).val) := by
  rw [invMixWord, wordByte_word4 _ _ _ _ _ r.isLt]
  fin_cases r
  · rfl
  · exact xor_rotate _ _ _ _
  · exact (xor_rotate _ _ _ _).trans (xor_rotate _ _ _ _)
  · exact (xor_rotate _ _ _ _).symm

theorem invMixByte_xor (a b c d a' b' c' d' : Byte) :
    invMixByte (a ^^^ a') (b ^^^ b') (c ^^^ c') (d ^^^ d') = invMixByte a b c d ^^^ invMixByte a' b' c' d' := by
  simp only [invMixByte, gmul_xor]
  ac_rfl

/-! A row of the inverse matrix times each column of the matrix is 1 on the diagonal and 0 elsewhere (R187, R188). -/

theorem invMixByte_column0 : ∀ x : Byte, invMixByte (gmul x 2) x x (gmul x 3) = x := by decide +kernel

theorem invMixByte_column1 : ∀ x : Byte, invMixByte (gmul x 3) (gmul x 2) x x = 0 := by decide +kernel

theorem invMixByte_column2 : ∀ x : Byte, invMixByte x (gmul x 3) (gmul x 2) x = 0 := by decide +kernel

theorem invMixByte_column3 : ∀ x : Byte, invMixByte x x (gmul x 3) (gmul x 2) = 0 := by decide +kernel

/-- Inverse mixing of the column that mixing makes of `a b c d`: by linearity, the sum of what it makes of each byte alone. -/
theorem invMixByte_mixed (a b c d : Byte) :
    invMixByte (gmul a 2 ^^^ gmul b 3 ^^^ c ^^^ d) (gmul b 2 ^^^ gmul c 3 ^^^ d ^^^ a)
      (gmul c 2 ^^^ gmul d 3 ^^^ a ^^^ b) (gmul d 2 ^^^ gmul a 3 ^^^ b ^^^ c) = a :=
  calc
    _ = invMixByte (gmul a 2) a a (gmul a 3) ^^^ invMixByte (gmul b 3) (gmul b 2) b b ^^^
          invMixByte c (gmul c 3) (gmul c 2) c ^^^ invMixByte d d (gmul d 3) (gmul d 2) := by
      simp only [← invMixByte_xor]
      ac_rfl
    _ = a ^^^ 0 ^^^ 0 ^^^ 0 := by
      rw [invMixByte_column0, invMixByte_column1, invMixByte_column2, invMixByte_column3]
    _ = a := by simp

theorem invMixColumns_mixColumns (s : Block) : invMixColumns (mixColumns s) = s := by
  refine block_ext fun r c => ?_
  have h := invMixByte_mixed (cell s r c) (cell s (r + 1) c) (cell s (r + 2) c) (cell s (r + 3) c)
  simpa [cell_invMixColumns, cell_mixColumns, add_assoc] using h

end Sys2Proof.Machine

open Sys2Proof Sys2Proof.Machine

/-- Settles O30: it is `invMixColumns_mixColumns`. -/
theorem invMixColumnsUndoesMixColumns : Obligations.InvMixColumnsUndoesMixColumns := invMixColumns_mixColumns

end

section
/-! SUPPORT. A full round in table form (spec/42_spn.md R192, R193), then the statement O31. -/

namespace Sys2Proof.Machine

/-- `rotr32` by whole bytes rotates the bytes of a word (00_scope.md R12). -/
theorem rotr32_word4 (a b c d : Byte) :
    rotr32 (word4 a b c d) 8 = word4 d a b c ∧ rotr32 (word4 a b c d) 16 = word4 c d a b ∧
      rotr32 (word4 a b c d) 24 = word4 b c d a := by
  refine ⟨?_, ?_, ?_⟩ <;> refine BitVec.eq_of_getLsbD_eq fun i hi => ?_ <;>
    interval_cases i <;> simp [word4, rotr32]

/-- Row `r` of the sum of the four tables, `x j` being the byte that table `j` takes: mixing of the substituted bytes. -/
theorem wordByte_tables (x : Fin 4 → Byte) (r : Fin 4) :
    wordByte (te0 (x 0) ^^^ rotr32 (te0 (x 1)) 8 ^^^ rotr32 (te0 (x 2)) 16 ^^^ rotr32 (te0 (x 3)) 24) r =
      gmul (sbox (x r)) 2 ^^^ gmul (sbox (x (r + 1))) 3 ^^^ sbox (x (r + 2)) ^^^ sbox (x (r + 3)) := by
  simp only [wordByte_xor, te0, rotr32_word4, wordByte_word4 _ _ _ _ _ r.isLt]
  fin_cases r
  · rfl
  · exact xor_rotate _ _ _ _
  · exact (xor_rotate _ _ _ _).trans (xor_rotate _ _ _ _)
  · exact (xor_rotate _ _ _ _).symm

theorem cell_encRound (ek : Vector Word 60) (s : Block) (rnd : Nat) (r c : Fin 4) :
    cell (encRound ek s rnd) r c =
      gmul (sbox (cell s r (c + r))) 2 ^^^ gmul (sbox (cell s (r + 1) (c + (r + 1)))) 3 ^^^
        sbox (cell s (r + 2) (c + (r + 2))) ^^^ sbox (cell s (r + 3) (c + (r + 3))) ^^^
          wordByte (scheduleWord ek (4 * rnd + c.val)) r.val := by
  simp only [encRound, addRoundKey, shiftRows, subBytes, cell_blockOf, cell_mixColumns]

end Sys2Proof.Machine

open Sys2Proof Sys2Proof.Machine

/-- Settles O31: table `j` of output column `c` takes the byte that `ShiftRows` brings to row `j` of that column. -/
theorem tableFormRoundIsTheRound : Obligations.TableFormRoundIsTheRound := by
  refine fun ek s rnd => block_ext fun r c => ?_
  have htables := wordByte_tables (fun j => cell s j (c + j)) r
  simp only [add_zero] at htables
  rw [cell_encRound, encRoundByTables, cell_blockOf, tableColumn, wordByte_xor, htables]

end

section
/-! SUPPORT. The substitution tables (spec/42_spn.md R182, R183), then the statement O29. -/

namespace Sys2Proof.Machine

/-- The inverse of the affine map of R182; `sboxAffine_sboxAffineInv` ties it to the model. -/
def sboxAffineInv (y : Byte) : Byte := y.rotateRight 2 ^^^ y.rotateRight 5 ^^^ y.rotateRight 7 ^^^ 0x05

theorem sboxAffine_sboxAffineInv : ∀ y : Byte, sboxAffine (sboxAffineInv y) = y := by decide +kernel

/-- The affine map taken off the entry for `a` leaves the field inverse of `a` (R182). -/
theorem gmul_sboxAffineInv_sbox : ∀ a : Byte, a ≠ 0 → gmul a (sboxAffineInv (sbox a)) = 1 := by decide +kernel

@[simp] theorem isbox_sbox : ∀ a : Byte, isbox (sbox a) = a := by decide +kernel

end Sys2Proof.Machine

open Sys2Proof Sys2Proof.Machine

/-- Settles O29: the inverse of `a` is read off its entry, through the inverse of the affine map. -/
theorem substitutionTablesMeetTheirDefinition : Obligations.SubstitutionTablesMeetTheirDefinition :=
  ⟨rfl, fun a ha => ⟨sboxAffineInv (sbox a), gmul_sboxAffineInv_sbox a ha, (sboxAffine_sboxAffineInv _).symm⟩, isbox_sbox⟩

end

section
/-! SUPPORT. The block transform of the SPN unit run backwards (spec/42_spn.md R190, R191, R193, R194), then the statement
O32. -/

namespace Sys2Proof.Machine

/-! ### The cipher state as a string -/

@[simp] theorem blockOfBytes_toList (s : Block) : blockOfBytes s.toList = s := by
  apply Vector.ext
  intro i hi
  simp [blockOfBytes]

theorem toList_blockOfBytes {B : Bytes} (h : B.length = 16) : (blockOfBytes B).toList = B := by
  apply List.ext_getElem (by simp [h])
  intro i _ hi
  simp [blockOfBytes, hi]

/-! ### The steps of a round -/

@[simp] theorem addRoundKey_addRoundKey (k : Vector Word 60) (rnd : Nat) (s : Block) :
    addRoundKey k rnd (addRoundKey k rnd s) = s := by
  refine block_ext fun r c => ?_
  simp [addRoundKey]

theorem addRoundKey_congr {k k' : Vector Word 60} {rnd rnd' : Nat}
    (h : ∀ c : Fin 4, scheduleWord k (4 * rnd + c.val) = scheduleWord k' (4 * rnd' + c.val)) (s : Block) :
    addRoundKey k rnd s = addRoundKey k' rnd' s := by
  refine block_ext fun r c => ?_
  simp only [addRoundKey, cell_blockOf, h]

/-- Inverse column mixing moves past a round key that has been mixed the same way (R191). -/
theorem addRoundKey_invMixColumns {ek dk : Vector Word 60} {rnd rnd' : Nat}
    (h : ∀ c : Fin 4, scheduleWord dk (4 * rnd + c.val) = invMixWord (scheduleWord ek (4 * rnd' + c.val))) (s : Block) :
    addRoundKey dk rnd (invMixColumns s) = invMixColumns (addRoundKey ek rnd' s) := by
  refine block_ext fun r c => ?_
  simp only [cell_invMixColumns, addRoundKey, cell_blockOf, h, wordByte_invMixWord, invMixByte_xor]

/-- Substitution acts on each byte alone, so the two inverses may come in the order of R194. -/
theorem invShiftRows_invSubBytes_shiftRows_subBytes (s : Block) :
    invShiftRows (invSubBytes (shiftRows (subBytes s))) = s := by
  refine block_ext fun r c => ?_
  simp [invShiftRows, invSubBytes, shiftRows, subBytes]

/-! ### Schedules -/

/-- `dk` holds the round keys of `ek` in reverse order, with inverse column mixing on all but the first and the last (R191). -/
structure Reverses (nr : Nat) (ek dk : Vector Word 60) : Prop where
  first : ∀ c : Fin 4, scheduleWord dk (4 * 0 + c.val) = scheduleWord ek (4 * nr + c.val)
  middle : ∀ rnd, 0 < rnd → rnd < nr → ∀ c : Fin 4,
    scheduleWord dk (4 * rnd + c.val) = invMixWord (scheduleWord ek (4 * (nr - rnd) + c.val))
  last : ∀ c : Fin 4, scheduleWord dk (4 * nr + c.val) = scheduleWord ek (4 * 0 + c.val)

theorem scheduleWord_scheduleArray (W : List Word) {i : Nat} (h : i < 60) :
    scheduleWord (scheduleArray W) i = W.getD i 0 := by
  simp [scheduleWord, scheduleArray, h]

/-- Word `c` of round key `rnd` of the decryption schedule (R191). -/
theorem expandDec_getD (W : List Word) {nr rnd : Nat} (h : rnd ≤ nr) (c : Fin 4) :
    (expandDec nr W).getD (4 * rnd + c.val) 0 =
      if 0 < rnd ∧ rnd < nr then invMixWord (W.getD (4 * (nr - rnd) + c.val) 0)
      else W.getD (4 * (nr - rnd) + c.val) 0 := by
  have hlt : 4 * rnd + c.val < 4 * (nr + 1) := by omega
  have hdiv : (4 * rnd + c.val) / 4 = rnd := by omega
  have hmod : (4 * rnd + c.val) % 4 = c.val := by omega
  have hmiddle : (4 ≤ 4 * rnd + c.val ∧ 4 * rnd + c.val < 4 * nr) ↔ (0 < rnd ∧ rnd < nr) := by omega
  simp [expandDec, hlt, hdiv, hmod, hmiddle]

/-- `ExpandDec` reverses a schedule (R191); the array of 60 words holds 14 rounds at most. -/
theorem reverses_expandDec (W : List Word) {nr : Nat} (h : nr ≤ 14) :
    Reverses nr (scheduleArray W) (scheduleArray (expandDec nr W)) where
  first c := by
    rw [scheduleWord_scheduleArray _ (by omega), scheduleWord_scheduleArray _ (by omega), expandDec_getD W (by omega),
      if_neg (by omega), Nat.sub_zero]
  middle rnd hpos hlt c := by
    rw [scheduleWord_scheduleArray _ (by omega), scheduleWord_scheduleArray _ (by omega), expandDec_getD W (by omega),
      if_pos ⟨hpos, hlt⟩]
  last c := by
    rw [scheduleWord_scheduleArray _ (by omega), scheduleWord_scheduleArray _ (by omega), expandDec_getD W (by omega),
      if_neg (by omega), Nat.sub_self]

/-! ### Rounds -/

/-- The cipher state after the first key addition and `n` full encryption rounds; `spnEncBlock_eq` ties it to the model. -/
def encState (ek : Vector Word 60) (s : Block) (n : Nat) : Block :=
  (List.range' 1 n).foldl (encRound ek) (addRoundKey ek 0 s)

theorem encState_zero (ek : Vector Word 60) (s : Block) : encState ek s 0 = addRoundKey ek 0 s := rfl

theorem encState_succ (ek : Vector Word 60) (s : Block) (n : Nat) :
    encState ek s (n + 1) = encRound ek (encState ek s n) (n + 1) := by
  simp [encState, List.range'_concat, Nat.add_comm]

theorem spnEncBlock_eq (nr : Nat) (ek : Vector Word 60) (B : Bytes) :
    spnEncBlock nr ek B =
      (addRoundKey ek nr (shiftRows (subBytes (encState ek (blockOfBytes B) (nr - 1))))).toList := rfl

section
variable {nr : Nat} {ek dk : Vector Word 60} (h : Reverses nr ek dk)
include h

/-- Decryption round `rnd` undoes encryption round `nr - rnd`, both taken between substitution and its round key. -/
theorem Reverses.decRound_encRound {rnd : Nat} (hpos : 0 < rnd) (hlt : rnd < nr) (s : Block) :
    decRound dk (shiftRows (subBytes (encRound ek s (nr - rnd)))) rnd = shiftRows (subBytes s) := by
  rw [decRound, invShiftRows_invSubBytes_shiftRows_subBytes, addRoundKey_invMixColumns (h.middle rnd hpos hlt), encRound,
    addRoundKey_addRoundKey, invMixColumns_mixColumns]

/-- `n` full decryption rounds lead back over `n` full encryption rounds. -/
theorem Reverses.foldl_decRound {n : Nat} (hn : n < nr) (s : Block) :
    (List.range' 1 n).foldl (decRound dk) (shiftRows (subBytes (encState ek s (nr - 1)))) =
      shiftRows (subBytes (encState ek s (nr - 1 - n))) := by
  induction n with
  | zero => rfl
  | succ n ih =>
    have hidx : nr - 1 - n = nr - 1 - (n + 1) + 1 := by omega
    have hrnd : nr - 1 - (n + 1) + 1 = nr - (n + 1) := by omega
    rw [List.range'_concat, List.foldl_append, ih (by omega), hidx, encState_succ, hrnd]
    simpa [Nat.add_comm] using h.decRound_encRound (Nat.succ_pos n) hn _

theorem Reverses.spnDecBlock_spnEncBlock (hnr : 0 < nr) {B : Bytes} (hB : B.length = 16) :
    spnDecBlock nr dk (spnEncBlock nr ek B) = B := by
  have hstart : addRoundKey dk 0 (blockOfBytes (spnEncBlock nr ek B)) =
      shiftRows (subBytes (encState ek (blockOfBytes B) (nr - 1))) := by
    rw [spnEncBlock_eq, blockOfBytes_toList, addRoundKey_congr h.first, addRoundKey_addRoundKey]
  rw [spnDecBlock, hstart, h.foldl_decRound (by omega), Nat.sub_self, invShiftRows_invSubBytes_shiftRows_subBytes,
    addRoundKey_congr h.last, encState_zero, addRoundKey_addRoundKey, toList_blockOfBytes hB]

end

/-! ### The schedules of a key -/

/-- The rounds count of each legal key size, in one formula (R180). -/
theorem roundsNat_roundsOfKeybits {keybits : Nat} (h : keybits ∈ [128, 192, 256]) :
    roundsNat (roundsOfKeybits keybits) = keybits / 32 + 6 := by
  simp only [List.mem_cons, List.not_mem_nil, or_false] at h
  rcases h with rfl | rfl | rfl <;> rfl

/-- Decryption undoes encryption for any schedule words, if only their number is that of a legal key size. -/
theorem spnDecBlock_spnEncBlock_of_keybits (W : List Word) {keybits : Nat} (h : keybits ∈ [128, 192, 256]) {B : Bytes}
    (hB : B.length = 16) :
    spnDecBlock (roundsNat (roundsOfKeybits keybits))
      (scheduleArray (expandDec (roundsNat (roundsOfKeybits keybits)) W))
      (spnEncBlock (roundsNat (roundsOfKeybits keybits)) (scheduleArray W) B) = B := by
  have hnr := roundsNat_roundsOfKeybits h
  have hmax : keybits ≤ 256 := by
    simp only [List.mem_cons, List.not_mem_nil, or_false] at h
    omega
  exact (reverses_expandDec W (by omega)).spnDecBlock_spnEncBlock (by omega) hB

end Sys2Proof.Machine

open Sys2Proof Sys2Proof.Machine

/-- Settles O32: `ExpandDec` reverses the schedule, and each decryption round then undoes an encryption round. -/
theorem spnDecBlockUndoesEncBlock : Obligations.SpnDecBlockUndoesEncBlock := by
  intro key B keybits nr W hbits _ hB hexpand
  have hnr : roundsOfKeybits keybits = nr := by rw [← expandEnc_rounds key, hexpand]
  exact hnr ▸ spnDecBlock_spnEncBlock_of_keybits W hbits hB

end

section
/-! SUPPORT. The set-key commands of the SPN unit run forward (spec/42_spn.md R195, R196), then the statements O24 and O25. -/

namespace Sys2Proof.Machine

/-- A schedule array holds the words of its schedule and zeros after them (10_state.md R29). -/
theorem scheduleArray_getElem (W : List Word) (i : Fin 60) :
    (scheduleArray W)[i] = if i.val < W.length then W.getD i.val 0 else 0 := by
  split
  next => simp [scheduleArray]
  next h => exact scheduleArray_past_end (Nat.not_lt.mp h)

/-- The command `i` is a set-key command, `encOnly` where it expands the encryption schedule alone (R195, R196). -/
structure IsSetKey (i : Instr) (encOnly : Bool) : Prop where
  exec_eq : ∀ s, exec i s = spnSetKey i encOnly s
  ranges_eq : ∀ s, accessedRanges i s = [argBlock s 0 (argNat s 1 / 8)]

theorem isSetKey_spnSetkey : IsSetKey .spnSetkey false := ⟨fun _ => rfl, fun _ => rfl⟩

theorem isSetKey_spnSetkeyEnc : IsSetKey .spnSetkeyEnc true := ⟨fun _ => rfl, fun _ => rfl⟩

/-- The state after a set-key command that completes; `IsSetKey.completes` ties it to the model. -/
def afterSetKey (encOnly : Bool) (s : State) : State :=
  setEnd codeNoError (roundsWord (roundsOfKeybits (argNat s 1)))
    (setSpn (expandedContext encOnly (memRead s (argNat s 0) (argNat s 1 / 8)) (argNat s 1)) s)

section
variable {i : Instr} {encOnly : Bool} {s : State} (hi : IsSetKey i encOnly)
include hi

theorem IsSetKey.null (hkey : arg s 0 = 0) : exec i s = .next (setEnd codeNullPtr 0 s) := by
  rw [hi.exec_eq, spnSetKey, nonNull_false_iff.mpr ⟨_, List.mem_singleton_self _, hkey⟩, require_false, endFail]

theorem IsSetKey.badKeybits (hkey : arg s 0 ≠ 0) (hbits : argNat s 1 ∉ [128, 192, 256]) :
    exec i s = .next (setEnd codeInvalidLength 0 s) := by
  rw [hi.exec_eq, spnSetKey, nonNull_iff.mpr (by simpa using hkey), require_true, roundsOfKeybits_eq_none.mpr hbits,
    bne_self_eq_false, require_false, endFail]

theorem IsSetKey.completes (hkey : arg s 0 ≠ 0) (hbits : argNat s 1 ∈ [128, 192, 256])
    (hr : RangeOk s ⟨argNat s 0, argNat s 1 / 8⟩) : exec i s = .next (afterSetKey encOnly s) := by
  have hrounds : (roundsOfKeybits (argNat s 1) != .none) = true :=
    bne_iff_ne.mpr fun hnone => roundsOfKeybits_eq_none.mp hnone hbits
  rw [hi.exec_eq, spnSetKey, nonNull_iff.mpr (by simpa using hkey), require_true, hrounds, require_true,
    withRanges_of_ok (by simpa only [hi.ranges_eq, argBlock, List.mem_singleton, forall_eq] using hr), endWith]
  rfl

end

theorem afterSetKey_Nr (encOnly : Bool) (s : State) : (afterSetKey encOnly s).spn.Nr = roundsOfKeybits (argNat s 1) :=
  expandEnc_rounds _ _

/-- The state after a set-key command in the words of R195 and R196, `W` being the encryption schedule. -/
theorem afterSetKey_spec (encOnly : Bool) {s : State} (hbits : argNat s 1 ∈ [128, 192, 256]) :
    ∃ W : List Word,
      expandEnc (memRead s (argNat s 0) (argNat s 1 / 8)) (argNat s 1) = ((afterSetKey encOnly s).spn.Nr, W) ∧
      roundsNat (afterSetKey encOnly s).spn.Nr = argNat s 1 / 32 + 6 ∧
      W.length = 4 * (roundsNat (afterSetKey encOnly s).spn.Nr + 1) ∧
      (afterSetKey encOnly s).spn.ek = scheduleArray W ∧
      (afterSetKey encOnly s).spn.dk = (if encOnly then Vector.replicate 60 0 else
        scheduleArray (expandDec (roundsNat (afterSetKey encOnly s).spn.Nr) W)) ∧
      afterSetKey encOnly s = { s with
        spn := (afterSetKey encOnly s).spn, status := 0, result := BitVec.ofNat 32 (argNat s 1 / 32 + 6) } := by
  have hrounds := roundsNat_roundsOfKeybits hbits
  refine ⟨_, rfl, by rw [afterSetKey_Nr, hrounds], by rw [afterSetKey_Nr]; exact expandEnc_length _ hbits, rfl, rfl, ?_⟩
  rw [← hrounds]
  rfl

end Sys2Proof.Machine

open Sys2Proof Sys2Proof.Machine

/-- Settles O24, in the order of the checks of R195. -/
theorem spnSetkeyExpandsBothSchedules : Obligations.SpnSetkeyExpandsBothSchedules := by
  have hi := isSetKey_spnSetkey
  refine ⟨decode_encode .spnSetkey, fun s => ⟨hi.null, hi.badKeybits, fun hkey hbits hr => ?_⟩⟩
  obtain ⟨W, hexpand, hrounds, hlen, hek, hdk, hstate⟩ := afterSetKey_spec false hbits
  refine ⟨_, W, hexpand, hrounds, hlen, hi.completes hkey hbits hr, rfl, fun i => ?_, fun i => ?_, hstate⟩
  · rw [hek, scheduleArray_getElem]
  · rw [hdk, if_neg Bool.false_ne_true, scheduleArray_getElem, expandDec_length, hlen]

/-- Settles O25: as O24, with no decryption schedule. -/
theorem spnSetkeyEncExpandsOneSchedule : Obligations.SpnSetkeyEncExpandsOneSchedule := by
  have hi := isSetKey_spnSetkeyEnc
  refine ⟨decode_encode .spnSetkeyEnc, fun s => ⟨hi.null, hi.badKeybits, fun hkey hbits hr => ?_⟩⟩
  obtain ⟨W, hexpand, hrounds, hlen, hek, hdk, hstate⟩ := afterSetKey_spec true hbits
  refine ⟨_, W, hexpand, hrounds, hlen, hi.completes hkey hbits hr, rfl, fun i => ?_, fun i => ?_, hstate⟩
  · rw [hek, scheduleArray_getElem]
  · simp [hdk]

end

section
/-! SUPPORT. The block commands of the SPN unit run forward (spec/42_spn.md R197 to R200), then the statements O26, O27 and
O28. -/

namespace Sys2Proof.Machine

/-! ### The lifecycle rules -/

section
variable {s : State}

theorem spnHasKey_iff : spnHasKey s = true ↔ s.spn.Nr ≠ .none := bne_iff_ne

theorem spnHasKey_false (hNr : s.spn.Nr = .none) : spnHasKey s = false := by rw [spnHasKey, hNr, bne_self_eq_false]

theorem exec_spnEnc_noSchedule (hNr : s.spn.Nr = .none) : exec .spnEnc s = .refused .spnNoSchedule := by
  rw [exec, execSpnEnc, spnHasKey_false hNr, whenReady_false]

theorem exec_spnEnc_of_ready (hNr : s.spn.Nr ≠ .none) :
    exec .spnEnc s = spnBlockCommand .spnEnc (spnEncBlock (roundsNat s.spn.Nr) s.spn.ek) s := by
  rw [exec, execSpnEnc, spnHasKey_iff.mpr hNr, whenReady_true]

theorem exec_spnDec_noSchedule (hNr : s.spn.Nr = .none) : exec .spnDec s = .refused .spnNoSchedule := by
  rw [exec, execSpnDec, spnHasKey_false hNr, whenReady_false]

theorem exec_spnDec_encryptOnly (hNr : s.spn.Nr ≠ .none) (honly : s.spn.encOnly = true) :
    exec .spnDec s = .refused .spnEncryptOnly := by
  rw [exec, execSpnDec, spnHasKey_iff.mpr hNr, whenReady_true, spnHasDecryption, honly, Bool.not_true, whenReady_false]

theorem exec_spnDec_of_ready (hNr : s.spn.Nr ≠ .none) (honly : s.spn.encOnly = false) :
    exec .spnDec s = spnBlockCommand .spnDec (spnDecBlock (roundsNat s.spn.Nr) s.spn.dk) s := by
  rw [exec, execSpnDec, spnHasKey_iff.mpr hNr, whenReady_true, spnHasDecryption, honly, Bool.not_false, whenReady_true]

end

/-! ### The checks and the block -/

section
variable {i : Instr} {f : Bytes → Bytes} {s : State}

theorem spnBlockCommand_null (hnull : arg s 0 = 0 ∨ arg s 1 = 0) :
    spnBlockCommand i f s = .next (setEnd codeNullPtr 0 s) := by
  rw [spnBlockCommand, nonNull_false_iff.mpr (by simpa using hnull.imp Eq.symm Eq.symm), require_false, endFail]

theorem spnBlockCommand_completes (hranges : accessedRanges i s = [argBlock s 0 16, argBlock s 1 16])
    (hsrc : arg s 0 ≠ 0) (hdst : arg s 1 ≠ 0) (hrsrc : RangeOk s ⟨argNat s 0, 16⟩) (hrdst : RangeOk s ⟨argNat s 1, 16⟩) :
    spnBlockCommand i f s =
      .next (setEnd codeNoError 0 (memWrite (argNat s 1) (f (memRead s (argNat s 0) 16)) s)) := by
  have hok : ∀ r ∈ accessedRanges i s, RangeOk s r := by
    simp only [hranges, List.forall_mem_cons]
    exact ⟨hrsrc, hrdst, List.forall_mem_nil _⟩
  rw [spnBlockCommand, nonNull_iff.mpr (by simpa using ⟨hsrc, hdst⟩), require_true, withRanges_of_ok hok, endOk, endWith]
  rfl

end

end Sys2Proof.Machine

open Sys2Proof Sys2Proof.Machine

/-- Settles O26: past its lifecycle rule it is the block command with `EncBlock`. (By `rfl` the last equation would evaluate
the block transform.) -/
theorem spnEncEncryptsOneBlock : Obligations.SpnEncEncryptsOneBlock := by
  refine ⟨decode_encode .spnEnc, fun s =>
    ⟨exec_spnEnc_noSchedule, fun hNr hnull => ?_, fun hNr hsrc hdst hrsrc hrdst => ?_⟩⟩
  · rw [exec_spnEnc_of_ready hNr, spnBlockCommand_null hnull]
    rfl
  · rw [exec_spnEnc_of_ready hNr, spnBlockCommand_completes rfl hsrc hdst hrsrc hrdst]
    simp only [setEnd, memWrite, setMem, codeNoError]

/-- Settles O27: past its lifecycle rules it is the block command with `DecBlock`. -/
theorem spnDecDecryptsOneBlock : Obligations.SpnDecDecryptsOneBlock := by
  refine ⟨decode_encode .spnDec, fun s => ⟨exec_spnDec_noSchedule, exec_spnDec_encryptOnly,
    fun hNr honly hnull => ?_, fun hNr honly hsrc hdst hrsrc hrdst => ?_⟩⟩
  · rw [exec_spnDec_of_ready hNr honly, spnBlockCommand_null hnull]
    rfl
  · rw [exec_spnDec_of_ready hNr honly, spnBlockCommand_completes rfl hsrc hdst hrsrc hrdst]
    simp only [setEnd, memWrite, setMem, codeNoError]

/-- Settles O28: it completes in every state with the context of reset, so the second time the state is the same. -/
theorem spnDestroyWipesTheContext : Obligations.SpnDestroyWipesTheContext :=
  ⟨decode_encode .spnDestroy, fun s => ⟨setEnd codeNoError 0 (setSpn SpnCtx.zero s), rfl,
    by simp [SpnCtx.zero], rfl, rfl, rfl, rfl⟩⟩

end

section
/-! SUPPORT. SPN_DEC of what SPN_ENC has put out (spec/42_spn.md R197, R198), then the statement O33. -/

namespace Sys2Proof.Machine

/-- The state in which a block command on `src` and `dst` starts: the two operands in ARG0 and ARG1 (R197, R198). -/
def withBlockOperands (src dst : Word) (s : State) : State := setArg 0 src (setArg 1 dst s)

/-- The state after a block command on `src` and `dst` that has put out `C`; `spnBlockCommand_withBlockOperands` ties it to the
model. -/
def afterBlock (src dst : Word) (C : Bytes) (s : State) : State :=
  setEnd codeNoError 0 (memWrite dst.toNat C (withBlockOperands src dst s))

section
variable {src dst : Word} {C : Bytes} {s : State}

@[simp] theorem afterBlock_spn : (afterBlock src dst C s).spn = s.spn := rfl

@[simp] theorem rangeOk_afterBlock {r : BufRange} : RangeOk (afterBlock src dst C s) r ↔ RangeOk s r := rangeOk_congr rfl

theorem memRead_afterBlock (hC : C.length = 16) : memRead (afterBlock src dst C s) dst.toNat 16 = C := by
  rw [afterBlock, memRead_setEnd, ← hC, memRead_memWrite_same]

section
variable (hsrc : src ≠ 0) (hdst : dst ≠ 0) (hrsrc : RangeOk s ⟨src.toNat, 16⟩) (hrdst : RangeOk s ⟨dst.toNat, 16⟩)
include hsrc hdst hrsrc hrdst

theorem spnBlockCommand_withBlockOperands {i : Instr} (f : Bytes → Bytes)
    (hranges : ∀ u, accessedRanges i u = [argBlock u 0 16, argBlock u 1 16]) :
    spnBlockCommand i f (withBlockOperands src dst s) = .next (afterBlock src dst (f (memRead s src.toNat 16)) s) := by
  have h0 : arg (withBlockOperands src dst s) 0 = src := arg_setArg 0 src _ 0
  have h1 : arg (withBlockOperands src dst s) 1 = dst := (arg_setArg 0 src _ 1).trans (arg_setArg 1 dst s 1)
  have hok : ∀ r, RangeOk (withBlockOperands src dst s) r ↔ RangeOk s r := fun _ => rangeOk_congr rfl
  rw [spnBlockCommand_completes (hranges _) (by rwa [h0]) (by rwa [h1]) (by rwa [argNat, h0, hok])
    (by rwa [argNat, h1, hok]), argNat, argNat, h0, h1]
  rfl

theorem exec_spnEnc_withBlockOperands (hNr : s.spn.Nr ≠ .none) :
    exec .spnEnc (withBlockOperands src dst s) =
      .next (afterBlock src dst (spnEncBlock (roundsNat s.spn.Nr) s.spn.ek (memRead s src.toNat 16)) s) :=
  (exec_spnEnc_of_ready (s := withBlockOperands src dst s) hNr).trans
    (spnBlockCommand_withBlockOperands hsrc hdst hrsrc hrdst _ fun _ => rfl)

theorem exec_spnDec_withBlockOperands (hNr : s.spn.Nr ≠ .none) (honly : s.spn.encOnly = false) :
    exec .spnDec (withBlockOperands src dst s) =
      .next (afterBlock src dst (spnDecBlock (roundsNat s.spn.Nr) s.spn.dk (memRead s src.toNat 16)) s) :=
  (exec_spnDec_of_ready (s := withBlockOperands src dst s) hNr honly).trans
    (spnBlockCommand_withBlockOperands hsrc hdst hrsrc hrdst _ fun _ => rfl)

/-- In a context whose `DecBlock` undoes its `EncBlock`, SPN_DEC of the output of SPN_ENC gives the block back. -/
theorem exec_spnDec_of_exec_spnEnc {back : Word} (hback : back ≠ 0) (hrback : RangeOk s ⟨back.toNat, 16⟩)
    (hNr : s.spn.Nr ≠ .none) (honly : s.spn.encOnly = false)
    (hundo : ∀ B : Bytes, B.length = 16 →
      spnDecBlock (roundsNat s.spn.Nr) s.spn.dk (spnEncBlock (roundsNat s.spn.Nr) s.spn.ek B) = B) :
    ∃ t u, exec .spnEnc (withBlockOperands src dst s) = .next t ∧
      exec .spnDec (withBlockOperands dst back t) = .next u ∧ u.status = 0 ∧
      memRead u back.toNat 16 = memRead s src.toNat 16 := by
  have hplain : (memRead s src.toNat 16).length = 16 := memRead_length s src.toNat 16
  refine ⟨_, _, exec_spnEnc_withBlockOperands hsrc hdst hrsrc hrdst hNr,
    exec_spnDec_withBlockOperands hdst hback (rangeOk_afterBlock.mpr hrdst) (rangeOk_afterBlock.mpr hrback) hNr honly,
    rfl, ?_⟩
  rw [memRead_afterBlock (spnEncBlock_length _ _ _), afterBlock_spn, hundo _ hplain, memRead_afterBlock hplain]

end

end

end Sys2Proof.Machine

open Sys2Proof Sys2Proof.Machine

/-- Settles O33: SPN_SETKEY leaves schedules with which `DecBlock` undoes `EncBlock`, as in O32. -/
theorem spnCommandsRoundTrip : Obligations.SpnCommandsRoundTrip := by
  intro s0 s back hkey hbits hr hset src dst hsrc hdst hback hrsrc hrdst hrback
  cases hset.symm.trans (isSetKey_spnSetkey.completes hkey hbits hr)
  have hNr := afterSetKey_Nr false s0
  refine exec_spnDec_of_exec_spnEnc hsrc hdst hrsrc hrdst hback hrback ?_ rfl fun B hB => ?_
  · exact fun hnone => roundsOfKeybits_eq_none.mp (hNr.symm.trans hnone) hbits
  · obtain ⟨W, -, -, -, hek, hdk, -⟩ := afterSetKey_spec false hbits
    rw [hek, hdk, if_neg Bool.false_ne_true, hNr]
    exact spnDecBlock_spnEncBlock_of_keybits W hbits hB

end

section
/-! SUPPORT. The bit counter of the hash and the length its digest carries (spec/43_hash.md R235, R237, R241), then the
statements O37 and O38. -/

namespace Sys2Proof.Machine

/-- The carry of the low half is worth `2^32`, so the pair counts modulo `2^64` (R237). -/
theorem counterValue_addBits (hc : HashCtx) {n : Nat} (h : n < 2 ^ 32) :
    counterValue (addBits hc n) = (counterValue hc + n) % 2 ^ 64 := by
  have hlo := hc.cntLo.isLt
  have hhi := hc.cntHi.isLt
  have hone : (1 : Word).toNat = 1 := rfl
  unfold counterValue addBits
  dsimp only
  split
  next hcarry => rw [BitVec.toNat_add, BitVec.toNat_ofNat, hone]; omega
  next hroom => rw [BitVec.toNat_ofNat]; omega

/-- The counter does not see the state, the buffer or the fill count (R33). -/
theorem counterValue_withBlock (hc : HashCtx) (H : Vector Word 8) (buf : Vector Byte 64) (fill : Fin 64) :
    counterValue { hc with H := H, buf := buf, fill := fill } = counterValue hc := rfl

/-- The length is the counter and the bits still in the buffer (R241). -/
theorem totalBits_toNat (hc : HashCtx) : (totalBits hc).toNat = (counterValue hc + 8 * hc.fill.val) % 2 ^ 64 :=
  BitVec.toNat_ofNat _ _

/-- A byte for which the buffer has room waits there (R235). -/
theorem absorbByte_of_room {hc : HashCtx} (x : Byte) (h : hc.fill.val + 1 < 64) :
    absorbByte hc x = { hc with buf := hc.buf.set hc.fill x, fill := ⟨hc.fill.val + 1, h⟩ } := dif_pos h

/-- The byte that fills the buffer ends a block: a compression, and its 512 bits are counted (R235). -/
theorem absorbByte_of_full {hc : HashCtx} (x : Byte) (h : ¬ hc.fill.val + 1 < 64) :
    absorbByte hc x = addBits
      { hc with H := hashCompress hc.H (hc.buf.set hc.fill x).toList, buf := hc.buf.set hc.fill x, fill := 0 } 512 :=
  dif_neg h

@[simp] theorem addBits_fill (hc : HashCtx) (n : Nat) : (addBits hc n).fill = hc.fill := rfl

/-- A byte takes a place of the buffer, or as the 64th moves the bits of the whole buffer to the counter (R235). -/
theorem totalBits_absorbByte (hc : HashCtx) (x : Byte) :
    (totalBits (absorbByte hc x)).toNat = ((totalBits hc).toNat + 8) % 2 ^ 64 := by
  rw [totalBits_toNat, totalBits_toNat]
  by_cases hroom : hc.fill.val + 1 < 64
  · rw [absorbByte_of_room x hroom, counterValue_withBlock]
    dsimp only
    omega
  · rw [absorbByte_of_full x hroom, counterValue_addBits _ (by decide), counterValue_withBlock, addBits_fill]
    dsimp only [Fin.val_zero]
    omega

@[simp] theorem absorb_nil (hc : HashCtx) : absorb hc [] = hc := rfl

theorem absorb_cons (hc : HashCtx) (x : Byte) (X : Bytes) : absorb hc (x :: X) = absorb (absorbByte hc x) X := rfl

/-- Absorbing a string is absorbing its parts in order (R235). -/
theorem absorb_append (hc : HashCtx) (X Y : Bytes) : absorb hc (X ++ Y) = absorb (absorb hc X) Y := List.foldl_append

theorem totalBits_absorb (hc : HashCtx) (X : Bytes) :
    (totalBits (absorb hc X)).toNat = ((totalBits hc).toNat + 8 * X.length) % 2 ^ 64 := by
  induction X generalizing hc with
  | nil => rw [absorb_nil, List.length_nil, Nat.mul_zero, Nat.add_zero, Nat.mod_eq_of_lt (totalBits hc).isLt]
  | cons x X ih =>
    rw [absorb_cons, ih, totalBits_absorbByte, List.length_cons]
    omega

end Sys2Proof.Machine

open Sys2Proof Sys2Proof.Machine

/-- Settles O37: the value by `counterValue_addBits`; the other fields are those of the context by definition. -/
theorem addBitsIsA64BitCounter : Obligations.AddBitsIsA64BitCounter :=
  fun hc _ hn => ⟨counterValue_addBits hc hn, rfl⟩

/-- Settles O38: it is `totalBits_absorb`. -/
theorem absorbCountsEveryByte : Obligations.AbsorbCountsEveryByte := totalBits_absorb

end

section
/-! SUPPORT. The hash commands run forward (spec/43_hash.md R238 to R242), then the statements O34, O35, O36 and O40. -/

namespace Sys2Proof.Machine

/-- An empty range may be accessed wherever it starts (20_memory.md R74). -/
theorem rangeOk_empty (s : State) {a : Nat} (h : a ≤ 2 ^ 32) : RangeOk s ⟨a, 0⟩ :=
  ⟨h, by cases s.regBase <;> simp⟩

section
variable {s : State}

theorem exec_hashUpdate_notActive (hactive : s.hash.active = false) :
    exec .hashUpdate s = .refused .hashNotActive := by
  rw [exec, execHashUpdate, hashReady, hactive, whenReady_false]

theorem exec_hashFinal_notActive (hactive : s.hash.active = false) : exec .hashFinal s = .refused .hashNotActive := by
  rw [exec, execHashFinal, hashReady, hactive, whenReady_false]

/-- HASH_UPDATE of no byte leaves the whole context as it was (R239). -/
theorem exec_hashUpdate_empty (hactive : s.hash.active = true) (hsrc : arg s 0 ≠ 0) (hlen : argNat s 1 = 0) :
    exec .hashUpdate s = .next (setEnd codeNoError 0 s) := by
  have hr : RangeOk s (argRange s 0 1) := by
    rw [argRange, hlen]
    exact rangeOk_empty s (arg s 0).isLt.le
  have hread : readRange s (argRange s 0 1) = [] := List.length_eq_zero_iff.mp ((readRange_length _ _).trans hlen)
  rw [exec_hashUpdate_completes hactive hsrc hr, hread, absorb_nil, ← hactive]
  rfl

end

end Sys2Proof.Machine

open Sys2Proof Sys2Proof.Machine

/-- Settles O34: it completes in every state with the context of R234, so the second time the state is the same. -/
theorem hashInitStartsAHash : Obligations.HashInitStartsAHash :=
  ⟨decode_encode .hashInit, fun s => ⟨setEnd codeNoError 0 (setHash { ctx := hashInitCtx, active := true } s), rfl,
    rfl, rfl, rfl, by simp [hashInitCtx], rfl, rfl, rfl, rfl⟩⟩

/-- Settles O35, clause by clause from the command run forward. -/
theorem hashUpdateAbsorbsItsBytes : Obligations.HashUpdateAbsorbsItsBytes :=
  ⟨decode_encode .hashUpdate, fun _ => ⟨exec_hashUpdate_notActive, exec_hashUpdate_null, exec_hashUpdate_completes,
    exec_hashUpdate_empty⟩⟩

/-- Settles O36: when it completes the context is that of reset. -/
theorem hashFinalWritesTheDigest : Obligations.HashFinalWritesTheDigest :=
  ⟨decode_encode .hashFinal, fun _ => ⟨exec_hashFinal_notActive, exec_hashFinal_null, fun hactive hdst hr =>
    ⟨_, exec_hashFinal_completes hactive hdst hr, hashCtxAllZero_zero, rfl, rfl⟩⟩⟩

/-- Settles O40: the last step of either is a digest of eight words. -/
theorem digestsAre32Bytes : Obligations.DigestsAre32Bytes := ⟨hashFn_length, hmacFn_length⟩

end

section
/-! SUPPORT. HASH_UPDATE over ranges that meet (spec/43_hash.md R235), then the statement O39. -/

namespace Sys2Proof.Machine

/-- A range inside one that may be accessed may be accessed (20_memory.md R74, R76). -/
theorem rangeOk_of_subrange {s : State} {r q : BufRange} (h : RangeOk s r) (hstart : r.addr ≤ q.addr)
    (hend : q.addr + q.len ≤ r.addr + r.len) : RangeOk s q := by
  obtain ⟨htop, hregs⟩ := h
  refine ⟨by omega, ?_⟩
  cases hbase : s.regBase with
  | none => rfl
  | some b =>
    simp only [hbase, Option.all_some, decide_eq_true_eq] at hregs ⊢
    omega

/-- The state HASH_UPDATE leaves when it has absorbed `X`; `exec_hashUpdate_operands` ties it to the model. -/
def afterAbsorb (X : Bytes) (s : State) : State :=
  setEnd codeNoError 0 (setHash { ctx := absorb s.hash.ctx X, active := true } s)

theorem exec_hashUpdate_operands {s : State} {src len : Word} (h0 : arg s 0 = src) (h1 : arg s 1 = len)
    (hactive : s.hash.active = true) (hsrc : src ≠ 0) (hr : RangeOk s ⟨src.toNat, len.toNat⟩) :
    exec .hashUpdate s = .next (afterAbsorb (memRead s src.toNat len.toNat) s) := by
  subst h0 h1
  exact exec_hashUpdate_completes hactive hsrc hr

/-- The HASH_UPDATE of `n` bytes at ARG0. -/
theorem exec_hashUpdate_setLen {s : State} (n : Word) (hactive : s.hash.active = true) (hsrc : arg s 0 ≠ 0)
    (hr : RangeOk s ⟨argNat s 0, n.toNat⟩) :
    exec .hashUpdate (setArg 1 n s) = .next (afterAbsorb (memRead s (argNat s 0) n.toNat) (setArg 1 n s)) :=
  exec_hashUpdate_operands (arg_setArg 1 n s 0) (arg_setArg 1 n s 1) hactive hsrc hr

/-- The HASH_UPDATE of `m` bytes at `src` after another. -/
theorem exec_hashUpdate_afterAbsorb {s : State} {src m : Word} (X : Bytes) (hsrc : src ≠ 0)
    (hr : RangeOk s ⟨src.toNat, m.toNat⟩) :
    exec .hashUpdate (setArg 0 src (setArg 1 m (afterAbsorb X s))) =
      .next (afterAbsorb (memRead s src.toNat m.toNat) (setArg 0 src (setArg 1 m (afterAbsorb X s)))) :=
  exec_hashUpdate_operands (arg_setArg 0 src _ 0) ((arg_setArg 0 src _ 1).trans (arg_setArg 1 m _ 1)) rfl hsrc hr

end Sys2Proof.Machine

open Sys2Proof Sys2Proof.Machine

/-- Settles O39: the bytes of the one range are those of the two, and absorbing them is absorbing the two in turn. -/
theorem hashUpdatesConcatenate : Obligations.HashUpdatesConcatenate := by
  intro s n m hactive hsrc hnowrap hr
  have hpos : 0 < argNat s 0 := BitVec.toNat_pos_of_ne_zero hsrc
  have htop : argNat s 0 + (n.toNat + m.toNat) ≤ 2 ^ 32 := hr.1
  have hnext : (arg s 0 + n).toNat = argNat s 0 + n.toNat := BitVec.toNat_add_of_lt hnowrap
  have hboth : (n + m).toNat = n.toNat + m.toNat := BitVec.toNat_add_of_lt (by omega)
  have hne : arg s 0 + n ≠ 0 := BitVec.toNat_ne_iff_ne.mp (hnext ▸ (Nat.add_pos_left hpos _).ne')
  have hfirst : RangeOk s ⟨argNat s 0, n.toNat⟩ :=
    rangeOk_of_subrange hr (Nat.le_refl _) (Nat.add_le_add_left (Nat.le_add_right _ _) _)
  have hsecond : RangeOk s ⟨(arg s 0 + n).toNat, m.toNat⟩ :=
    rangeOk_of_subrange hr (hnext ▸ Nat.le_add_right _ _) (by dsimp only; omega)
  refine ⟨_, _, _, exec_hashUpdate_setLen n hactive hsrc hfirst, exec_hashUpdate_afterAbsorb _ hne hsecond,
    exec_hashUpdate_setLen (n + m) hactive hsrc (hboth ▸ hr), ?_, rfl, rfl⟩
  rw [hboth, memRead_append, memRead_setArg, hnext]
  simp only [afterAbsorb, absorb_append, setEnd_hash, setHash_hash, setArg_hash]

end

section
/-! SUPPORT. HMAC run forward and the reduced key (spec/44_hmac.md R271, R273, R275), then the statements O43 and O44. -/

namespace Sys2Proof.Machine

/-! ### The command -/

section
variable {s : State}

theorem exec_hmac_null (hnull : arg s 0 = 0 ∨ arg s 2 = 0 ∨ arg s 4 = 0) :
    exec .hmac s = .next (setEnd codeNullPtr 0 s) := by
  rw [exec, execHmac, nonNull_false_iff.mpr (by simpa using hnull.imp Eq.symm (.imp Eq.symm Eq.symm)), require_false, endFail]

theorem exec_hmac_completes (hkey : arg s 0 ≠ 0) (hmsg : arg s 2 ≠ 0) (hdst : arg s 4 ≠ 0)
    (hrkey : RangeOk s (argRange s 0 1)) (hrmsg : RangeOk s (argRange s 2 3)) (hrdst : RangeOk s (argBlock s 4 32)) :
    exec .hmac s = .next (setEnd codeNoError 0 (setScratch Scratch.zero
      (memWrite (argNat s 4) (hmacFn (readRange s (argRange s 0 1)) (readRange s (argRange s 2 3))) s))) := by
  have hranges : ∀ r ∈ accessedRanges .hmac s, RangeOk s r := by
    have heq : accessedRanges .hmac s = [argRange s 0 1, argRange s 2 3, argBlock s 4 32] := rfl
    simp only [heq, List.forall_mem_cons]
    exact ⟨hrkey, hrmsg, hrdst, List.forall_mem_nil _⟩
  rw [exec, execHmac, nonNull_iff.mpr (by simpa using ⟨hkey, hmsg, hdst⟩), require_true, withRanges_of_ok hranges, endOk,
    endWith]

end

/-! ### The reduced key -/

section
variable {key : Bytes}

theorem hmacKey_of_long (h : 64 < key.length) : hmacKey key = hashFn key ++ zeroBytes (64 - (hashFn key).length) := by
  rw [hmacKey, if_pos h]

theorem hmacKey_of_not_long (h : key.length ≤ 64) : hmacKey key = key ++ zeroBytes (64 - key.length) := by
  rw [hmacKey, if_neg (Nat.not_lt.mpr h)]

/-- A long key and its digest reduce to the same 64 bytes, since the digest is itself no long key (R271). -/
theorem hmacKey_hashFn (h : 64 < key.length) : hmacKey (hashFn key) = hmacKey key := by
  have hdigest : (hashFn key).length ≤ 64 := (hashFn_length key).trans_le (by decide)
  rw [hmacKey_of_not_long hdigest, hmacKey_of_long h]

@[simp] theorem hmacKey_length (key : Bytes) : (hmacKey key).length = 64 := by
  obtain h | h := Nat.lt_or_ge 64 key.length
  · rw [hmacKey_of_long h, List.length_append, zeroBytes_length, hashFn_length]
  · rw [hmacKey_of_not_long h, List.length_append, zeroBytes_length, Nat.add_sub_cancel' h]

/-- `Hmac` reads its key through the reduced key only (R272). -/
theorem hmacFn_congr_of_hmacKey_eq {key' : Bytes} (h : hmacKey key = hmacKey key') (msg : Bytes) :
    hmacFn key msg = hmacFn key' msg := by
  simp only [hmacFn, hmacPad, h]

end

end Sys2Proof.Machine

open Sys2Proof Sys2Proof.Machine

/-- Settles O43: past its NULL check, HMAC has no check but that of its ranges. (By `rfl` the last equation would evaluate the
keyed hash.) -/
theorem hmacWritesTheKeyedHash : Obligations.HmacWritesTheKeyedHash := by
  refine ⟨decode_encode .hmac, fun s => ⟨exec_hmac_null, fun hkey hmsg hdst hrkey hrmsg hrdst => ?_⟩⟩
  rw [exec_hmac_completes hkey hmsg hdst hrkey hrmsg hrdst]
  simp only [setEnd, setScratch, memWrite, setMem, codeNoError, readRange, argRange]

/-- Settles O44: `Hmac` reads its key through the reduced key only, and a long key reduces as its digest does. -/
theorem longHmacKeysAreHashed : Obligations.LongHmacKeysAreHashed :=
  ⟨fun _ msg h => hmacFn_congr_of_hmacKey_eq (hmacKey_hashFn h).symm msg, fun _ => hmacKey_of_not_long, hmacKey_length⟩

end

section
/-! SUPPORT. The output loop of KDF and the command run forward (spec/45_kdf.md R287, R288, R289), then the statements O46 and
O45. -/

namespace Sys2Proof.Machine

/-! ### The output loop -/

/-- From one block count on, two output loops give the same blocks; they differ only in where the output is cut (R287). -/
theorem kdfLoop_take {pw salt : Bytes} {rounds f1 f2 count r1 r2 : Nat} (hfuel : f1 ≤ f2) (henough : r1 ≤ 32 * f1)
    (hrem : r1 ≤ r2) : (kdfLoop pw salt rounds f2 count r2).take r1 = kdfLoop pw salt rounds f1 count r1 := by
  induction f1 generalizing f2 count r1 r2 with
  | zero =>
    obtain rfl : r1 = 0 := Nat.le_zero.mp henough
    rfl
  | succ f1 ih =>
    obtain ⟨f2, rfl⟩ := Nat.exists_eq_add_one.mpr (Nat.zero_lt_of_lt hfuel)
    have hcut : min r1 (min r2 32) = min r1 32 := by omega
    have hrest : r1 - min (min r2 32) 32 = r1 - 32 := by omega
    rw [kdfLoop, kdfLoop, List.take_append, List.take_take, List.length_take, kdfBlock_length, hcut, hrest,
      ih (Nat.le_of_succ_le_succ hfuel) (by omega) (Nat.sub_le_sub_right hrem 32)]

theorem kdfFn_take (pw salt : Bytes) (rounds : Nat) {o1 o2 : Nat} (h : o1 ≤ o2) :
    (kdfFn pw salt rounds o2).take o1 = kdfFn pw salt rounds o1 :=
  kdfLoop_take (Nat.div_le_div_right (Nat.add_le_add_right h 31)) (by omega) h

/-! ### The command -/

section
variable {s : State}

theorem exec_kdf_null (hnull : arg s 0 = 0 ∨ arg s 2 = 0 ∨ arg s 5 = 0) :
    exec .kdf s = .next (setEnd codeNullPtr 0 s) := by
  rw [exec, execKdf, nonNull_false_iff.mpr (by simpa using hnull.imp Eq.symm (.imp Eq.symm Eq.symm)), require_false, endFail]

section
variable (hpw : arg s 0 ≠ 0) (hsalt : arg s 2 ≠ 0) (hdst : arg s 5 ≠ 0)
include hpw hsalt hdst

theorem exec_kdf_parameters (hzero : argNat s 3 = 0 ∨ argNat s 6 = 0 ∨ argNat s 4 = 0) :
    exec .kdf s = .next (setEnd codeInvalidParameters 0 s) := by
  have hcheck : (argNat s 3 != 0 && argNat s 6 != 0 && argNat s 4 != 0) = false := by
    simpa only [Bool.and_eq_false_iff, bne_eq_false_iff_eq, or_assoc] using hzero
  rw [exec, execKdf, nonNull_iff.mpr (by simpa using ⟨hpw, hsalt, hdst⟩), require_true, hcheck, require_false, endFail]

theorem exec_kdf_completes (hslen : argNat s 3 ≠ 0) (holen : argNat s 6 ≠ 0) (hrounds : argNat s 4 ≠ 0)
    (hrpw : RangeOk s (argRange s 0 1)) (hrsalt : RangeOk s (argRange s 2 3)) (hrdst : RangeOk s (argRange s 5 6)) :
    exec .kdf s = .next (setEnd codeNoError 0 (setScratch Scratch.zero
      (memWrite (argNat s 5)
        (kdfFn (readRange s (argRange s 0 1)) (readRange s (argRange s 2 3)) (argNat s 4) (argNat s 6)) s))) := by
  have hcheck : (argNat s 3 != 0 && argNat s 6 != 0 && argNat s 4 != 0) = true := by
    simpa only [Bool.and_eq_true, bne_iff_ne, and_assoc] using ⟨hslen, holen, hrounds⟩
  have hranges : ∀ r ∈ accessedRanges .kdf s, RangeOk s r := by
    have heq : accessedRanges .kdf s = [argRange s 0 1, argRange s 2 3, argRange s 5 6] := rfl
    simp only [heq, List.forall_mem_cons]
    exact ⟨hrpw, hrsalt, hrdst, List.forall_mem_nil _⟩
  rw [exec, execKdf, nonNull_iff.mpr (by simpa using ⟨hpw, hsalt, hdst⟩), require_true, hcheck, require_true,
    withRanges_of_ok hranges, endOk, endWith]

end

end

end Sys2Proof.Machine

open Sys2Proof Sys2Proof.Machine

/-- Settles O46: the length by `kdfFn_length`, and both outputs are cut from the same blocks. -/
theorem kdfOutputsArePrefixes : Obligations.KdfOutputsArePrefixes :=
  fun pw salt rounds _ _ h => ⟨kdfFn_length pw salt rounds _, kdfFn_take pw salt rounds h⟩

/-- Settles O45, clause by clause from the command run forward. (By `rfl` the last equation would evaluate the keyed hash.) -/
theorem kdfWritesTheDerivedKey : Obligations.KdfWritesTheDerivedKey := by
  refine ⟨decode_encode .kdf, fun s => ⟨exec_kdf_null, exec_kdf_parameters,
    fun hpw hsalt hdst hslen holen hrounds hrpw hrsalt hrdst => ?_⟩⟩
  rw [exec_kdf_completes hpw hsalt hdst hslen holen hrounds hrpw hrsalt hrdst]
  simp only [setEnd, setScratch, memWrite, setMem, codeNoError, readRange, argRange]

end

section
/-! SUPPORT. How a command ends, as a function of its operands and the lifecycle conditions (spec/60_exceptions.md R308, R310):
by the first condition that does not hold, of the lifecycle rules, the checks that fail with a code, and the ranges (log 4). -/

namespace Sys2Proof.Machine

/-! ### The verdict on a command -/

/-- How a command ends, its effect left out: refused, failing with a code, or completing with a value of RESULT. -/
inductive Verdict where
  | refuses (why : Refusal)
  | fails (code : Word)
  | completes (res : Word)

/-- The lifecycle rules of a command, each with its refusal (R308 step 2). -/
def lifecycleRules (i : Instr) (s : State) : List (Bool × Refusal) :=
  match i with
  | .feiEcbEnc | .feiEcbDec | .feiCbcEnc | .feiCbcDec => [(feistelReady s, .feistelNotKeyed)]
  | .spnEnc => [(spnHasKey s, .spnNoSchedule)]
  | .spnDec => [(spnHasKey s, .spnNoSchedule), (spnHasDecryption s, .spnEncryptOnly)]
  | .hashUpdate | .hashFinal => [(hashReady s, .hashNotActive)]
  | _ => []

/-- The ARG registers that hold the address operands of a command (30_encoding.md R91). -/
def pointers (i : Instr) : List (Fin 7) :=
  (List.finRange 7).filter fun k => (operandKinds i)[k.val]? = some .addr

/-- The length and parameter checks of a command, each with its code (R308 steps 4 and 5). -/
def valueChecks (i : Instr) (s : State) : List (Bool × Word) :=
  match i with
  | .feiInit => [(decide (4 ≤ argNat s 1) && decide (argNat s 1 ≤ 56), codeInvalidLength)]
  | .feiEcbEnc | .feiEcbDec | .feiCbcEnc | .feiCbcDec => [(argNat s 2 % 8 == 0, codeInvalidLength)]
  | .spnSetkey | .spnSetkeyEnc => [(roundsOfKeybits (argNat s 1) != .none, codeInvalidLength)]
  | .kdf => [(argNat s 3 != 0 && argNat s 6 != 0 && argNat s 4 != 0, codeInvalidParameters)]
  | _ => []

/-- The checks of a command that fail with a code, the NULL check first (R308 steps 3 to 5). -/
def codedChecks (i : Instr) (s : State) : List (Bool × Word) :=
  (nonNull ((pointers i).map (arg s)), codeNullPtr) :: valueChecks i s

/-- The two halves of the range check (20_memory.md R74, R76). -/
def rangeRules (rs : List BufRange) (base : Option Word) : List (Bool × Refusal) :=
  [(!rs.any rangeWraps, .rangeWraps), (!rs.any (rangeOverRegisters base), .rangeOverRegisters)]

/-- RESULT after a command that completes (10_state.md R44). -/
def resultOf (i : Instr) (s : State) : Word :=
  match i with
  | .spnSetkey | .spnSetkeyEnc => roundsWord (roundsOfKeybits (argNat s 1))
  | _ => 0

/-- The verdict of the first condition that does not hold, `v` where all hold. -/
def firstFailing {α : Type} (f : α → Verdict) (conds : List (Bool × α)) (v : Verdict) : Verdict :=
  conds.foldr (fun c v => if c.1 then v else f c.2) v

/-- The conditions of a command in the order of R308; `exec_answers` ties it to the model. -/
def verdict (i : Instr) (s : State) : Verdict :=
  firstFailing .refuses (lifecycleRules i s) <|
  firstFailing .fails (codedChecks i s) <|
  firstFailing .refuses (rangeRules (accessedRanges i s) s.regBase) <|
  .completes (resultOf i s)

/-- The answer `o`, given in state `s`, is the one the verdict says, whatever the effect of a command that completes. -/
def Answers (s : State) (v : Verdict) (o : Out) : Prop :=
  match v with
  | .refuses why => o = .refused why
  | .fails code => o = .next (setEnd code 0 s)
  | .completes res => ∃ u, o = .next (setEnd codeNoError res u)

/-! ### Every command answers by its verdict -/

section
variable {s : State} {v : Verdict} {k : State → Out}

theorem answers_endWith {res : Word} {u : State} : Answers s (.completes res) (endWith res u) := ⟨u, rfl⟩

theorem Answers.whenReady {ready : Bool} {why : Refusal} {rules : List (Bool × Refusal)}
    (h : Answers s (firstFailing .refuses rules v) (k s)) :
    Answers s (firstFailing .refuses ((ready, why) :: rules) v) (whenReady ready why s k) := by
  cases ready with
  | true => exact h
  | false => rfl

theorem Answers.require {ok : Bool} {code : Word} {checks : List (Bool × Word)}
    (h : Answers s (firstFailing .fails checks v) (k s)) :
    Answers s (firstFailing .fails ((ok, code) :: checks) v) (require ok code s k) := by
  cases ok with
  | true => exact h
  | false => rfl

theorem Answers.withRanges {rs : List BufRange} (h : Answers s v (k s)) :
    Answers s (firstFailing .refuses (rangeRules rs s.regBase) v) (withRanges rs s k) := by
  rw [Machine.withRanges, rangeRules]
  cases rs.any rangeWraps with
  | true => rfl
  | false =>
    cases rs.any (rangeOverRegisters s.regBase) with
    | true => rfl
    | false => exact h

end

/-- Every command takes its conditions in the order of R308, and completes where all hold. -/
theorem exec_answers (i : Instr) (s : State) : Answers s (verdict i s) (exec i s) := by
  cases i with
  | feiEcbEnc | feiEcbDec | feiCbcEnc | feiCbcDec =>
    simp only [exec, execFeiEcbEnc, execFeiEcbDec, execFeiCbcEnc, execFeiCbcDec, feistelBulk]
    exact .whenReady (.require (.require (.withRanges answers_endWith)))
  | feiInit | spnSetkey | spnSetkeyEnc | kdf =>
    simp only [exec, execFeiInit, execSpnSetkey, execSpnSetkeyEnc, spnSetKey, execKdf]
    exact .require (.require (.withRanges answers_endWith))
  | spnEnc | hashUpdate | hashFinal =>
    simp only [exec, execSpnEnc, execHashUpdate, execHashFinal]
    exact .whenReady (.require (.withRanges answers_endWith))
  | spnDec =>
    simp only [exec, execSpnDec]
    exact .whenReady (.whenReady (.require (.withRanges answers_endWith)))
  | hmac =>
    simp only [exec, execHmac]
    exact .require (.withRanges answers_endWith)
  | feiDestroy | spnDestroy | hashInit => exact answers_endWith

/-! ### What the verdict says -/

/-- Either some condition does not hold and gives the verdict, or all hold. -/
theorem firstFailing_cases {α : Type} (f : α → Verdict) (conds : List (Bool × α)) (v : Verdict) :
    (∃ a, (false, a) ∈ conds ∧ firstFailing f conds v = f a) ∨
      ((∀ c ∈ conds, c.1 = true) ∧ firstFailing f conds v = v) := by
  induction conds with
  | nil => exact .inr ⟨List.forall_mem_nil _, rfl⟩
  | cons c conds ih =>
    obtain ⟨_ | _, a⟩ := c
    · exact .inl ⟨a, List.mem_cons_self, rfl⟩
    · simpa [firstFailing] using ih

theorem firstFailing_of_all {α : Type} {f : α → Verdict} {conds : List (Bool × α)} {v : Verdict}
    (h : ∀ c ∈ conds, c.1 = true) : firstFailing f conds v = v := by
  obtain ⟨a, ha, -⟩ | ⟨-, hv⟩ := firstFailing_cases f conds v
  · exact absurd (h _ ha) Bool.false_ne_true
  · exact hv

/-- The lifecycle rules together say that the lifecycle allows the command. -/
theorem lifecycleAllows_iff {i : Instr} {s : State} :
    lifecycleAllows i s ↔ ∀ c ∈ lifecycleRules i s, c.1 = true := by
  cases i <;>
    simp [lifecycleAllows, lifecycleRules, bulkCommands, feistelReady, spnHasKey, spnHasDecryption, hashReady]

/-- The four ways a command can end, each with the condition that brings it there. -/
theorem exec_cases (i : Instr) (s : State) :
    (∃ why, (false, why) ∈ lifecycleRules i s ∧ exec i s = .refused why) ∨
    (∃ code, (false, code) ∈ codedChecks i s ∧ exec i s = .next (setEnd code 0 s)) ∨
    (lifecycleAllows i s ∧
      ∃ why, (false, why) ∈ rangeRules (accessedRanges i s) s.regBase ∧ exec i s = .refused why) ∨
    ((∀ c ∈ codedChecks i s, c.1 = true) ∧ ∃ u, exec i s = .next (setEnd codeNoError (resultOf i s) u)) := by
  have hexec := exec_answers i s
  rw [verdict] at hexec
  obtain ⟨why, hwhy, hv⟩ | ⟨hlife, hv⟩ := firstFailing_cases .refuses (lifecycleRules i s) _ <;> rw [hv] at hexec
  · exact .inl ⟨why, hwhy, hexec⟩
  obtain ⟨code, hcode, hv⟩ | ⟨hchecks, hv⟩ := firstFailing_cases .fails (codedChecks i s) _ <;> rw [hv] at hexec
  · exact .inr (.inl ⟨code, hcode, hexec⟩)
  obtain ⟨why, hwhy, hv⟩ | ⟨-, hv⟩ := firstFailing_cases .refuses (rangeRules (accessedRanges i s) s.regBase) _ <;>
    rw [hv] at hexec
  · exact .inr (.inr (.inl ⟨lifecycleAllows_iff.mpr hlife, why, hwhy, hexec⟩))
  · exact .inr (.inr (.inr ⟨hchecks, hexec⟩))

end Sys2Proof.Machine
end

section
/-! SUPPORT. What each condition of a command says: the codes of the checks (spec/60_exceptions.md R321), the refusals of the
rules (R312), and that the verdict reads neither Mem nor a schedule (R310). -/

namespace Sys2Proof.Machine

/-! ### The codes -/

theorem mem_pointers {i : Instr} {k : Fin 7} : k ∈ pointers i ↔ (operandKinds i)[k.val]? = some .addr := by
  simp [pointers]

/-- The NULL check of a command does not hold where one of its address operands is 0 (R305). -/
theorem nonNull_pointers_false_iff {i : Instr} {s : State} :
    nonNull ((pointers i).map (arg s)) = false ↔ ∃ k ∈ pointers i, arg s k = 0 := by
  simp [nonNull_false_iff]

theorem codeNullPtr_mem_codesOf {i : Instr} (h : pointers i ≠ []) : codeNullPtr ∈ codesOf i := by
  revert h
  cases i <;> decide

theorem code_of_valueChecks {i : Instr} {s : State} {ok : Bool} {code : Word} (h : (ok, code) ∈ valueChecks i s) :
    code ∈ codesOf i ∧ code ≠ 0 := by
  cases i with
  | feiInit | feiEcbEnc | feiEcbDec | feiCbcEnc | feiCbcDec | spnSetkey | spnSetkeyEnc | kdf =>
    obtain ⟨-, rfl⟩ := Prod.mk.inj (List.mem_singleton.mp h)
    decide
  | _ => cases h

/-- A check of a command that does not hold gives one of its codes, none of which is NO_ERROR. -/
theorem code_of_codedChecks {i : Instr} {s : State} {code : Word} (h : (false, code) ∈ codedChecks i s) :
    code ∈ codesOf i ∧ code ≠ 0 := by
  obtain heq | hvalue := List.mem_cons.mp h
  · obtain ⟨hnull, rfl⟩ := Prod.mk.inj heq
    obtain ⟨k, hk, -⟩ := nonNull_pointers_false_iff.mp hnull.symm
    exact ⟨codeNullPtr_mem_codesOf (List.ne_nil_of_mem hk), codeNullPtr_ne_noError⟩
  · exact code_of_valueChecks hvalue

theorem noError_mem_codesOf (i : Instr) : codeNoError ∈ codesOf i := by cases i <;> decide

/-- RESULT of a set-key command whose checks hold: the key size is legal, and RESULT its rounds count (10_state.md R44). -/
theorem resultOf_setKey {i : Instr} {s : State} (hi : i = .spnSetkey ∨ i = .spnSetkeyEnc)
    (h : ∀ c ∈ codedChecks i s, c.1 = true) :
    argNat s 1 ∈ [128, 192, 256] ∧ resultOf i s = BitVec.ofNat 32 (argNat s 1 / 32 + 6) := by
  have hcheck : (roundsOfKeybits (argNat s 1) != .none, codeInvalidLength) ∈ valueChecks i s := by
    rcases hi with rfl | rfl <;> exact List.mem_singleton_self _
  have hrounds : roundsOfKeybits (argNat s 1) ≠ .none := bne_iff_ne.mp (h _ (List.mem_cons_of_mem _ hcheck))
  have hbits : argNat s 1 ∈ [128, 192, 256] := not_not.mp fun hn => hrounds (roundsOfKeybits_eq_none.mpr hn)
  refine ⟨hbits, ?_⟩
  rw [← roundsNat_roundsOfKeybits hbits]
  rcases hi with rfl | rfl <;> rfl

theorem resultOf_other {i : Instr} (s : State) (h : i ≠ .spnSetkey ∧ i ≠ .spnSetkeyEnc) : resultOf i s = 0 := by
  obtain ⟨hboth, henc⟩ := h
  cases i with
  | spnSetkey => contradiction
  | spnSetkeyEnc => contradiction
  | _ => rfl

/-! ### The refusals -/

theorem spnHasKey_false_iff {s : State} : spnHasKey s = false ↔ s.spn.Nr = .none := bne_eq_false_iff_eq

/-- A lifecycle rule that does not hold, written out (R312). -/
theorem refusal_of_lifecycleRules {i : Instr} {s : State} {why : Refusal} (h : (false, why) ∈ lifecycleRules i s) :
    (why = .feistelNotKeyed ∧ i ∈ bulkCommands ∧ s.fei.keyed = false) ∨
      (why = .spnNoSchedule ∧ (i = .spnEnc ∨ i = .spnDec) ∧ s.spn.Nr = .none) ∨
      (why = .spnEncryptOnly ∧ i = .spnDec ∧ s.spn.encOnly = true) ∨
      (why = .hashNotActive ∧ (i = .hashUpdate ∨ i = .hashFinal) ∧ s.hash.active = false) := by
  cases i with
  | feiEcbEnc | feiEcbDec | feiCbcEnc | feiCbcDec =>
    obtain ⟨hkeyed, rfl⟩ := Prod.mk.inj (List.mem_singleton.mp h)
    exact .inl ⟨rfl, by decide, hkeyed.symm⟩
  | spnEnc =>
    obtain ⟨hkey, rfl⟩ := Prod.mk.inj (List.mem_singleton.mp h)
    exact .inr (.inl ⟨rfl, .inl rfl, spnHasKey_false_iff.mp hkey.symm⟩)
  | spnDec =>
    simp only [lifecycleRules, List.mem_cons, List.not_mem_nil, or_false, Prod.mk.injEq] at h
    obtain ⟨hkey, rfl⟩ | ⟨honly, rfl⟩ := h
    · exact .inr (.inl ⟨rfl, .inr rfl, spnHasKey_false_iff.mp hkey.symm⟩)
    · exact .inr (.inr (.inl ⟨rfl, rfl, by simpa [spnHasDecryption] using honly⟩))
  | hashUpdate | hashFinal =>
    obtain ⟨hactive, rfl⟩ := Prod.mk.inj (List.mem_singleton.mp h)
    exact .inr (.inr (.inr ⟨rfl, by decide, hactive.symm⟩))
  | _ => cases h

/-- The range check refuses a command for a range that may not be accessed. -/
theorem refusal_of_rangeRules {rs : List BufRange} {s : State} {why : Refusal}
    (h : (false, why) ∈ rangeRules rs s.regBase) :
    (why = .rangeWraps ∨ why = .rangeOverRegisters) ∧ ∃ r ∈ rs, ¬ RangeOk s r := by
  simp only [rangeRules, List.mem_cons, List.not_mem_nil, or_false, Prod.mk.injEq, eq_comm (a := false),
    Bool.not_eq_false', List.any_eq_true] at h
  obtain ⟨⟨r, hr, hwraps⟩, rfl⟩ | ⟨⟨r, hr, hover⟩, rfl⟩ := h
  · exact ⟨.inl rfl, r, hr, by simp [rangeOk_iff, hwraps]⟩
  · exact ⟨.inr rfl, r, hr, by simp [rangeOk_iff, hover]⟩

/-! ### What the verdict reads -/

theorem verdict_of_null {i : Instr} {s : State} {k : Fin 7} (hlife : lifecycleAllows i s) (hk : k ∈ pointers i)
    (hnull : arg s k = 0) : verdict i s = .fails codeNullPtr := by
  rw [verdict, firstFailing_of_all (lifecycleAllows_iff.mp hlife), codedChecks,
    nonNull_pointers_false_iff.mpr ⟨k, hk, hnull⟩]
  rfl

section
variable {s s' : State} (hargs : s'.args = s.args)
include hargs

theorem arg_congr : arg s' = arg s := by
  funext i
  simp only [arg, hargs]

theorem argNat_congr : argNat s' = argNat s := by
  funext i
  simp only [argNat, arg_congr hargs]

theorem codedChecks_congr (i : Instr) : codedChecks i s' = codedChecks i s := by
  simp only [codedChecks, valueChecks, arg_congr hargs, argNat_congr hargs]

theorem accessedRanges_congr (i : Instr) : accessedRanges i s' = accessedRanges i s := by
  simp only [accessedRanges, loadedRanges, storedRange, argRange, argBlock, argNat_congr hargs]

theorem resultOf_congr (i : Instr) : resultOf i s' = resultOf i s := by
  simp only [resultOf, argNat_congr hargs]

theorem verdict_congr (i : Instr) (hkeyed : s'.fei.keyed = s.fei.keyed) (hNr : s'.spn.Nr = s.spn.Nr)
    (honly : s'.spn.encOnly = s.spn.encOnly) (hactive : s'.hash.active = s.hash.active)
    (hbase : s'.regBase = s.regBase) : verdict i s' = verdict i s := by
  have hrules : lifecycleRules i s' = lifecycleRules i s := by
    simp only [lifecycleRules, feistelReady, spnHasKey, spnHasDecryption, hashReady, hkeyed, hNr, honly, hactive]
  rw [verdict, verdict, hrules, codedChecks_congr hargs, accessedRanges_congr hargs, resultOf_congr hargs, hbase]

end

/-- Two answers by one verdict have the same STATUS and RESULT, or are the same refusal. -/
theorem Answers.same_outcome {s s' : State} {v : Verdict} {o o' : Out} (h : Answers s v o) (h' : Answers s' v o') :
    (∀ t, o = .next t → ∃ t', o' = .next t' ∧ t'.status = t.status ∧ t'.result = t.result) ∧
      (∀ r, o = .refused r → o' = .refused r) := by
  cases v with
  | refuses why =>
    obtain rfl := h
    obtain rfl := h'
    exact ⟨fun _ ht => (nomatch ht), fun _ hr => hr⟩
  | fails code =>
    obtain rfl := h
    obtain rfl := h'
    refine ⟨?_, nofun⟩
    rintro _ ⟨⟩
    exact ⟨_, rfl, rfl, rfl⟩
  | completes res =>
    obtain ⟨u, rfl⟩ := h
    obtain ⟨u', rfl⟩ := h'
    refine ⟨?_, nofun⟩
    rintro _ ⟨⟩
    exact ⟨_, rfl, rfl, rfl⟩

end Sys2Proof.Machine
end

section
/-! How commands end (spec/60_exceptions.md R305 to R312, R321): the statements O47 to O51. -/

open Sys2Proof Sys2Proof.Machine

/-- Settles O47: a next state with a STATUS other than NO_ERROR is a failure, and a failure writes STATUS and RESULT only. -/
theorem failureChangesOnlyStatusAndResult : Obligations.FailureChangesOnlyStatusAndResult := by
  intro i s t h hstatus
  obtain ⟨code, -, rfl⟩ | ⟨u, res, -, -, rfl⟩ := exec_next h
  · rfl
  · exact absurd rfl hstatus

/-- Settles O48: both states give the command the same verdict. -/
theorem outcomeDoesNotDependOnMem : Obligations.OutcomeDoesNotDependOnMem := by
  intro i s s' hargs hkeyed hNr honly hactive hbase
  exact (exec_answers i s).same_outcome (verdict_congr hargs i hkeyed hNr honly hactive hbase ▸ exec_answers i s')

/-- Settles O49: a failure has the code of a check and RESULT 0; a command that completes has the RESULT of its rule. -/
theorem codesAndResultPerCommand : Obligations.CodesAndResultPerCommand := by
  intro i s t h
  obtain ⟨why, -, he⟩ | ⟨code, hcode, he⟩ | ⟨-, why, -, he⟩ | ⟨hchecks, u, he⟩ := exec_cases i s <;>
    cases h.symm.trans he
  · obtain ⟨hmem, hne⟩ := code_of_codedChecks hcode
    exact ⟨hmem, fun hzero => absurd hzero hne, fun _ => rfl⟩
  · refine ⟨noError_mem_codesOf i, fun _ hi => resultOf_setKey hi hchecks, ?_⟩
    rintro (hstatus | hi)
    · exact absurd rfl hstatus
    · exact resultOf_other s hi

/-- Settles O50: the NULL check is the first after the lifecycle rules. -/
theorem nullOperandFailsFirst : Obligations.NullOperandFailsFirst := by
  intro i s k hlife hk hnull
  have hexec := exec_answers i s
  rwa [verdict_of_null hlife (mem_pointers.mpr hk) hnull] at hexec

/-- Settles O51: a refusal is that of a lifecycle rule, or that of a range where the lifecycle allows the command. -/
theorem refusedOnlyWhereTheSpecRefuses : Obligations.RefusedOnlyWhereTheSpecRefuses := by
  intro i s
  obtain ⟨why, hwhy, he⟩ | ⟨code, -, he⟩ | ⟨hlife, why, hwhy, he⟩ | ⟨-, u, he⟩ := exec_cases i s <;> rw [he]
  · refine ⟨?_, nofun⟩
    rintro _ ⟨⟩
    exact (refusal_of_lifecycleRules hwhy).imp_right (.imp_right (.imp_right .inl))
  · exact ⟨nofun, nofun⟩
  · refine ⟨?_, nofun⟩
    rintro _ ⟨⟩
    obtain ⟨hrange, hbad⟩ := refusal_of_rangeRules hwhy
    exact .inr (.inr (.inr (.inr ⟨hrange, hlife, hbad⟩)))
  · exact ⟨nofun, nofun⟩

end

section
/-! SUPPORT. CBC encryption of a string in two parts (spec/40_feistel.md R132), then the statement O23. -/

namespace Sys2Proof.Machine

/-- The second part is chained to the last block before it: the last of the IV followed by the first part's ciphertext. -/
theorem cbcEncBlocks_add {f : Bytes → Bytes} (hf : ∀ B, (f B).length = 8) (m n : Nat) {V : Bytes} (X : Bytes)
    (hV : V.length = 8) :
    cbcEncBlocks f (m + n) V X =
      cbcEncBlocks f m V (X.take (8 * m)) ++
        cbcEncBlocks f n ((V ++ cbcEncBlocks f m V (X.take (8 * m))).drop (8 * m)) (X.drop (8 * m)) := by
  induction m generalizing V X with
  | zero => simp [cbcEncBlocks]
  | succ m ih =>
    have hfirst : (X.take (8 * (m + 1))).take 8 = X.take 8 := by rw [List.take_take, Nat.min_eq_left (by omega)]
    have hrest : (X.take (8 * (m + 1))).drop 8 = (X.drop 8).take (8 * m) := by
      rw [Nat.mul_succ, List.drop_take, Nat.add_sub_cancel]
    have hchain (E : Bytes) : (V ++ E).drop (8 * (m + 1)) = E.drop (8 * m) := by
      rw [Nat.mul_succ, Nat.add_comm, ← List.drop_drop, List.drop_left' hV]
    rw [hchain, Nat.succ_add, cbcEncBlocks, cbcEncBlocks, ih _ (hf _), hfirst, hrest, List.append_assoc, List.drop_drop,
      ← Nat.add_comm (8 * m), ← Nat.mul_succ]

end Sys2Proof.Machine

open Sys2Proof Sys2Proof.Machine

/-- Settles O23: the last block of a first part that is not empty is a block of its ciphertext, not the IV. -/
theorem cbcEncryptionSplits : Obligations.CbcEncryptionSplits := by
  intro f m n V X hf hV _ hm
  have hlast (E : Bytes) : (V ++ E).drop (8 * m) = E.drop (8 * (m - 1)) := by
    rw [List.drop_append, List.drop_of_length_le (by omega), List.nil_append, hV, Nat.mul_sub]
  rw [cbcEncBlocks_add hf m n X hV, hlast]

end

section
/-! SUPPORT. The lifecycle machines (spec/70_reset_and_hazards.md R343): the commands of a unit by their inversions, all others by
the frame of their unit; then the statements O53 and O54. -/

namespace Sys2Proof.Machine

variable {i : Instr} {s t : State}

theorem exec_keyed (h : exec i s = .next t) :
    t.fei.keyed = if i = .feiDestroy then false else if i = .feiInit ∧ t.status = 0 then true else s.fei.keyed := by
  by_cases hdestroy : i = .feiDestroy
  · subst hdestroy
    rw [execFeiDestroy_next h]
    rfl
  by_cases hinit : i = .feiInit
  · subst hinit
    obtain rfl | rfl | ⟨-, -, -, -, rfl⟩ := execFeiInit_next h <;> rfl
  · obtain ⟨hfei, -⟩ := commandsWriteTheirOwnUnitOnly i s t h
    simp [hfei hinit hdestroy, hinit, hdestroy]

theorem expandedContext_Nr_ne_none (encOnly : Bool) (key : Bytes) {keybits : Nat} (h : roundsOfKeybits keybits ≠ .none) :
    (expandedContext encOnly key keybits).Nr ≠ .none := by
  rwa [expandedContext, expandEnc_rounds]

/-- A set-key command that completes leaves a schedule of its kind; one that fails leaves the context. -/
theorem spnSetKey_lifecycle {encOnly : Bool} (h : spnSetKey i encOnly s = .next t) :
    (t.status = 0 ∧ t.spn.Nr ≠ .none ∧ t.spn.encOnly = encOnly) ∨ (t.status ≠ 0 ∧ t.spn = s.spn) := by
  obtain rfl | rfl | ⟨-, hbits, -, rfl⟩ := spnSetKey_next h
  · exact .inr ⟨codeNullPtr_ne_noError, rfl⟩
  · exact .inr ⟨(by decide : codeInvalidLength ≠ 0), rfl⟩
  · exact .inl ⟨rfl, expandedContext_Nr_ne_none _ _ hbits, rfl⟩

theorem exec_spn_lifecycle (h : exec i s = .next t) :
    (t.spn.Nr = .none ↔
      i = .spnDestroy ∨ (¬ ((i = .spnSetkey ∨ i = .spnSetkeyEnc) ∧ t.status = 0) ∧ s.spn.Nr = .none)) ∧
    (t.spn.encOnly = if i = .spnDestroy then false else if i = .spnSetkey ∧ t.status = 0 then false
      else if i = .spnSetkeyEnc ∧ t.status = 0 then true else s.spn.encOnly) := by
  by_cases hdestroy : i = .spnDestroy
  · subst hdestroy
    rw [execSpnDestroy_next h]
    simp [SpnCtx.zero]
  by_cases hkey : i = .spnSetkey ∨ i = .spnSetkeyEnc
  · obtain rfl | rfl := hkey
    all_goals
      obtain ⟨hstatus, hNr, honly⟩ | ⟨hstatus, hspn⟩ := spnSetKey_lifecycle h
      · simp [hstatus, hNr, honly]
      · simp only [hstatus, hspn, reduceCtorEq, and_false, not_false_eq_true, true_and, false_or, if_false, and_self]
  · obtain ⟨-, hspn, -⟩ := commandsWriteTheirOwnUnitOnly i s t h
    obtain ⟨hkey, hkeyEnc⟩ := not_or.mp hkey
    simp [hspn hkey hkeyEnc hdestroy, hdestroy, hkey, hkeyEnc]

theorem exec_active (h : exec i s = .next t) :
    t.hash.active = if i = .hashInit then true else if i = .hashFinal ∧ t.status = 0 then false else s.hash.active := by
  by_cases hinit : i = .hashInit
  · subst hinit
    rw [execHashInit_next h]
    rfl
  by_cases hupdate : i = .hashUpdate
  · subst hupdate
    obtain ⟨-, rfl | ⟨-, -, rfl⟩⟩ := execHashUpdate_next h <;> rfl
  by_cases hfinal : i = .hashFinal
  · subst hfinal
    obtain ⟨-, rfl | ⟨-, -, rfl⟩⟩ := execHashFinal_next h <;> rfl
  · obtain ⟨-, -, hhash, -⟩ := commandsWriteTheirOwnUnitOnly i s t h
    simp [hhash hinit hupdate hfinal, hinit, hfinal]

/-- HASH_FINAL that completes leaves the context of its destroyed state. -/
theorem execHashFinal_hash_of_completes (h : execHashFinal s = .next t) (hstatus : t.status = 0) :
    t.hash = HashUnit.zero := by
  obtain ⟨-, rfl | ⟨-, -, rfl⟩⟩ := execHashFinal_next h
  · exact absurd hstatus codeNullPtr_ne_noError
  · rfl

end Sys2Proof.Machine

open Sys2Proof Sys2Proof.Machine

/-- Settles O53: each of the three machines moves by the commands of its unit only. -/
theorem lifecycleMachines : Obligations.LifecycleMachines := by
  intro i s t h
  obtain ⟨hNr, honly⟩ := exec_spn_lifecycle h
  exact ⟨exec_keyed h, hNr, honly, exec_active h⟩

/-- Settles O54: each destroying command writes the zero context, and reset writes all of them and scratch. -/
theorem destroyedIsReset : Obligations.DestroyedIsReset := by
  refine ⟨fun s t h => ?_, fun s t h => ?_, fun _ _ => execHashFinal_hash_of_completes, fun s rest hhost => ?_⟩
  · rw [execFeiDestroy_next h]
    rfl
  · rw [execSpnDestroy_next h]
    rfl
  · exact ⟨resetCore (setHost rest s), step_access hhost, rfl, rfl, rfl, rfl⟩

end
